-- ==== Sys2Proof/Word.lean ====
section
/-! DEFINITION. The widths the block works at (spec/00_scope.md R6, R7; spec/20_memory.md R59). -/

namespace Sys2Proof

/-- A byte of a write or of a read (R7). -/
abbrev Byte := BitVec 8

/-- A 16-bit register, result, channel code or reading: `RESP_W`, `STATUS_W`, `CTR_W`, `LASTERR_W` (R6, R59). -/
abbrev Word := BitVec 16

/-- A one-bit register: `HEATER_W` (R6). -/
abbrev Bit := BitVec 1

end Sys2Proof
end

