-- ==== Sys2Proof/Config.lean ====
section
/-! DEFINITION. The OPEN parameters of the block (spec/00_scope.md R6) and the free values of the spec
(spec/44_read.md R152). None of them has a body: nothing can be proved about a value they take. -/

namespace Sys2Proof

/-- The telemetry channel table `TLM_ROM`: exactly sixteen pairs (code, value), the codes pairwise distinct,
codes and values 16-bit unsigned (R6, R52). Nothing else is asked of it. -/
structure TlmRom where
  entries  : List (Word × Word)
  sixteen  : entries.length = 16
  distinct : (entries.map Prod.fst).Nodup
deriving DecidableEq, Repr

namespace Config

/-- OPEN. The sixteen channel codes: its values at 0, …, 15. A permutation of all 65536 codes, so that the codes are
pairwise distinct; every choice of sixteen distinct codes is that of some permutation (R52; log 6). -/
opaque channelOrder : Equiv.Perm Word

/-- OPEN. The sixteen readings, any 16-bit values, 0xFFFF among them (R52; log 6). -/
opaque channelValue : Fin 16 → Word

/-- `TLM_ROM` (R6, R52): the table made of the two OPEN parameters above. -/
def tlmRom : TlmRom where
  entries  := List.ofFn fun i : Fin 16 => (channelOrder (BitVec.ofNat 16 i.val), channelValue i)
  sixteen  := List.length_ofFn
  distinct := by
    rw [List.map_ofFn, List.nodup_ofFn]
    intro i j h
    have := congrArg BitVec.toNat (channelOrder.injective h)
    simp only [BitVec.toNat_ofNat] at this
    exact Fin.ext (by omega)

/-- OPEN. `DEVICE_ID` of each instance (R6, R21, R172). No rule reads it and nothing in this model does (log 7). -/
opaque deviceId : Nat → Nat

/-- FREE VALUE. The bytes a READ returns at index 2 and above (R152, decision D8): the `n`-th byte drawn (log 4). -/
opaque freeByte : Nat → Byte

end Config
end Sys2Proof
end

