-- ==== Sys2Proof/Syntax.lean ====
section
/-! DEFINITION. Transactions and the instructions they stand for: one constructor per row of
spec/opcode_table.json (spec/30_encoding.md R70 to R76; mnemonics of spec/00_scope.md R12). -/

namespace Sys2Proof

/-- One transaction on the bus, as the bus delivers it (R5, R70). -/
inductive Transaction where
  /-- `write(bytes)`: the byte sequence `w`, index 0 first on the bus. -/
  | write (w : List Byte)
  /-- `read(k)`: the number of bytes asked for. -/
  | read (k : Nat)
deriving DecidableEq, Repr

/-- The bytes after the opcode: formats W2 (R71) and W3 (R72). -/
inductive Args where
  | w2 (a1 : Byte)
  | w3 (a1 a2 : Byte)
deriving DecidableEq, Repr

/-- The rows of spec/opcode_table.json. A recognized opcode may come in either format: each requires a length, and the
other one is an error of that opcode (R73, R78). -/
inductive Instr where
  /-- 0x01, get board status -/
  | gbs (args : Args)
  /-- 0x03, get last error -/
  | gle (args : Args)
  /-- 0x04, get version -/
  | gver (args : Args)
  /-- 0x05, get checksum -/
  | gcs (args : Args)
  /-- 0x10, get telemetry -/
  | gtlm (args : Args)
  /-- 0x31, get brownout-reset count -/
  | gbor (args : Args)
  /-- 0x32, get auto-software-reset count -/
  | gasr (args : Args)
  /-- 0x33, get manual-reset count -/
  | gmr (args : Args)
  /-- 0x80, manual reset -/
  | mrst (args : Args)
  /-- 0x90, get heater controller status -/
  | ghtr (args : Args)
  /-- 0x91, set heater controller status -/
  | shtr (args : Args)
  /-- any other opcode, in a write of 2 or 3 bytes -/
  | unknown (op : Byte) (args : Args)
  /-- a write whose length is neither 2 nor 3 -/
  | badlen (w : List Byte)
  /-- a read transaction of `k` bytes -/
  | read (k : Nat)
deriving DecidableEq, Repr

/-- Why a transaction decodes to no instruction. -/
inductive DecodeReject where
  /-- A READ of `k < 2` bytes: the spec gives it no meaning and asks a model to refuse it (R154). -/
  | readBufferShort (k : Nat)
deriving DecidableEq, Repr

end Sys2Proof
end

