-- ==== Sys2Proof/Machine/State.lean ====
section
/-! DEFINITION. The state: the Device record of spec/10_state.md R20, and beside it what stands for the block's interface. -/

namespace Sys2Proof.Machine

/-- The complete architectural state of one Device, under the spec's names (R20). -/
structure Device where
  /-- the response latch (R22, R23) -/
  last_response : Word
  /-- the sticky fault register: bit 0 unknown command, bit 2 malformed argument, bit 3 invalid telemetry channel (R26) -/
  board_status : Word
  /-- firmware version, a constant (R24) -/
  version : Word
  /-- firmware checksum, a constant (R25) -/
  checksum : Word
  /-- brownout resets; no command writes it (R34) -/
  brownout_resets : Word
  /-- auto software resets; no command writes it (R34) -/
  auto_software_resets : Word
  /-- manual resets, counted by MRST (R35) -/
  manual_resets : Word
  /-- 0 off, 1 on (R37) -/
  heater_controller_status : Bit
  /-- no command writes it (R36) -/
  last_error : Word
deriving DecidableEq, Repr

/-- What a transaction hands back to the bus: outputs of the step and not state of the Device (R94, R150, R151; log 3). -/
inductive Reply where
  /-- a write's returned count -/
  | ack (n : Nat)
  /-- a read's output bytes and its returned count -/
  | data (out : List Byte) (produced : Nat)
deriving DecidableEq, Repr

/-- The Device and the model's own fields for its interface. -/
structure State where
  /-- the spec's state record `S` (R20) -/
  dev : Device
  /-- the transactions the bus has still to deliver, in the order of delivery (R38, R62; log 1) -/
  bus : List Transaction
  /-- the outputs of the latest transaction; nothing reads them (R94, R151; log 3) -/
  reply : Option Reply
  /-- how many free bytes have been drawn (R152; log 4) -/
  draws : Nat
deriving DecidableEq, Repr

/-- The block never stops: "All failures are local and non-fatal: malformed input never throws/aborts" (R103, R160). So
there is no fault reason (log 18). -/
inductive Fault where
deriving DecidableEq, Repr

/-- What the model gives no meaning to. -/
inductive Refusal where
  /-- An instruction without a meaning. Safe. Raised by an arm of `exec` only; no arm raises it. -/
  | notModelled (mnemonic : String)
  /-- A READ of `k < 2` bytes, which the spec asks a model to refuse (R154, decision D8; log 5). Safe. Raised by `step`
  when the transaction does not decode, and by READ's meaning. -/
  | readBufferShort (k : Nat)
deriving DecidableEq, Repr

/-- The Device right after its creation (R191). -/
def Device.reset : Device where
  last_response := 0x0000
  board_status := 0x0000
  version := 0x1001
  checksum := 0xBEEF
  brownout_resets := 0
  auto_software_resets := 0
  manual_resets := 0
  heater_controller_status := 1
  last_error := 0

/-- The machine right after reset (R190 to R192): the Device of R191; no transaction delivered or waiting (log 1, 3, 4). -/
def State.reset : State where
  dev := Device.reset
  bus := []
  reply := none
  draws := 0

end Sys2Proof.Machine
end

