-- ==== Sys2Proof/Machine/Flags.lean ====
section
/-! DEFINITION. The fault bits of `board_status`: their masks and the two primitives on the register
(spec/10_state.md R26 to R28; spec/40_dispatch.md R95, R96). There are no other flags (R39). -/

namespace Sys2Proof.Machine

/-- unknown-command fault, bit 0 (R26) -/
def maskUnknown : Word := 0x0001
/-- malformed-argument fault, bit 2 (R26) -/
def maskMalformed : Word := 0x0004
/-- invalid-telemetry-channel fault, bit 3 (R26) -/
def maskTelemetry : Word := 0x0008
/-- the bits `ClearFaults()` clears: 0 and 2 together (R95) -/
def maskClearFaults : Word := 0x0005

/-- OR-set (R27, R96): the bits of `m` become 1, every other bit keeps its value. -/
def setBits (m status : Word) : Word := status ||| m

/-- AND-clear (R28, R95): the bits of `m` become 0, every other bit keeps its value. -/
def clearBits (m status : Word) : Word := status &&& ~~~m

end Sys2Proof.Machine
end

