-- ==== Sys2Proof/WellFormed.lean ====
section
/-! DEFINITION. The instructions that stand for a transaction: what a term of `Instr` may hold. -/

namespace Sys2Proof

/-- The opcodes that are not assigned, as spec/30_encoding.md R79 lists them: first and last value of each range. -/
def unassignedRanges : List (Nat × Nat) :=
  [(0x00, 0x00), (0x02, 0x02), (0x06, 0x0F), (0x11, 0x30), (0x34, 0x7F), (0x81, 0x8F), (0x92, 0xFF)]

/-- `op` is one of the 245 unassigned opcodes (R79). -/
def unassigned (op : Byte) : Bool :=
  unassignedRanges.any fun r => r.1 ≤ op.toNat && op.toNat ≤ r.2

/-- UNKNOWN holds an unassigned opcode (R79), BADLEN a length other than 2 and 3 (R73, R81), READ a count of at least 2
(R150, R154). The operands of the eleven commands are not restricted: each command answers every one of them (R80). -/
def Instr.wellFormed : Instr → Bool
  | .gbs _ | .gle _ | .gver _ | .gcs _ | .gtlm _ | .gbor _ | .gasr _ | .gmr _ | .mrst _ | .ghtr _ | .shtr _ => true
  | .unknown op _ => unassigned op
  | .badlen w => w.length != 2 && w.length != 3
  | .read k => 2 ≤ k

end Sys2Proof
end

