-- ==== Sys2Proof/Decode.lean ====
section
/-! DEFINITION. The opcode table, the decoder and the encoder (spec/30_encoding.md). The format is decided by the length
of the write alone (R73), the opcode by exact equality with a key of the table (R75). -/

namespace Sys2Proof

/-! ## The opcodes (R76) -/

def Opcode.gbs  : Byte := 0x01
def Opcode.gle  : Byte := 0x03
def Opcode.gver : Byte := 0x04
def Opcode.gcs  : Byte := 0x05
def Opcode.gtlm : Byte := 0x10
def Opcode.gbor : Byte := 0x31
def Opcode.gasr : Byte := 0x32
def Opcode.gmr  : Byte := 0x33
def Opcode.mrst : Byte := 0x80
def Opcode.ghtr : Byte := 0x90
def Opcode.shtr : Byte := 0x91

/-- The opcode table: the key of each of the eleven commands and the command (R75, R76). -/
def opcodeTable : List (Byte × (Args → Instr)) :=
  [(Opcode.gbs, .gbs), (Opcode.gle, .gle), (Opcode.gver, .gver), (Opcode.gcs, .gcs), (Opcode.gtlm, .gtlm),
   (Opcode.gbor, .gbor), (Opcode.gasr, .gasr), (Opcode.gmr, .gmr), (Opcode.mrst, .mrst), (Opcode.ghtr, .ghtr),
   (Opcode.shtr, .shtr)]

/-! ## The decoder -/

/-- Lookup by exact equality on all 8 bits of the opcode (R75). -/
def lookupOpcode (op : Byte) : Option (Args → Instr) :=
  (opcodeTable.find? fun row => row.1 == op).map Prod.snd

/-- A write of 2 or 3 bytes: a command of the table, or UNKNOWN (R76, R79). -/
def decodeCommand (op : Byte) (args : Args) : Instr :=
  match lookupOpcode op with
  | some command => command args
  | none => .unknown op args

/-- A write, by its length (R73): W2, W3, or BADLEN, in which no byte is interpreted (R81). -/
def decodeWrite : List Byte → Instr
  | [op, a1] => decodeCommand op (.w2 a1)
  | [op, a1, a2] => decodeCommand op (.w3 a1 a2)
  | w => .badlen w

/-- The instruction a transaction stands for. Every write has one (R103); a READ of fewer than 2 bytes has none (R154). -/
def decode : Transaction → Except DecodeReject Instr
  | .write w => .ok (decodeWrite w)
  | .read k => if k < 2 then .error (.readBufferShort k) else .ok (.read k)

/-! ## The encoder -/

/-- The bytes that follow the opcode (R71, R72). -/
def Args.bytes : Args → List Byte
  | .w2 a1 => [a1]
  | .w3 a1 a2 => [a1, a2]

/-- The transaction of an instruction (R70 to R76, R83). -/
def encode : Instr → Transaction
  | .gbs args => .write (Opcode.gbs :: args.bytes)
  | .gle args => .write (Opcode.gle :: args.bytes)
  | .gver args => .write (Opcode.gver :: args.bytes)
  | .gcs args => .write (Opcode.gcs :: args.bytes)
  | .gtlm args => .write (Opcode.gtlm :: args.bytes)
  | .gbor args => .write (Opcode.gbor :: args.bytes)
  | .gasr args => .write (Opcode.gasr :: args.bytes)
  | .gmr args => .write (Opcode.gmr :: args.bytes)
  | .mrst args => .write (Opcode.mrst :: args.bytes)
  | .ghtr args => .write (Opcode.ghtr :: args.bytes)
  | .shtr args => .write (Opcode.shtr :: args.bytes)
  | .unknown op args => .write (op :: args.bytes)
  | .badlen w => .write w
  | .read k => .read k

/-- QUERY (R84): the command followed by a READ of two bytes. -/
def encodeQuery (i : Instr) : List Transaction :=
  [encode i, .read 2]

/-! ## The frame words of spec/opcode_table.json -/

/-- The bytes of a frame word of `nbits` bits: byte 0 of the write is its most significant byte (R82; log 14). -/
def frameBytes (nbits w : Nat) : List Byte :=
  let n := (nbits + 7) / 8
  (List.range n).map fun i => BitVec.ofNat 8 (w / 256 ^ (n - 1 - i))

/-- The instruction the decoder reads from the write that a frame word presents. -/
def decodeTableWord (nbits w : Nat) : Option Instr :=
  (decode (.write (frameBytes nbits w))).toOption

end Sys2Proof
end

