-- ==== Sys2Proof/Machine/Operands.lean ====
section
/-! DEFINITION. The operands: how they are assembled from the bytes of a write, the checks on them, and how a response
is taken apart into bytes (spec/30_encoding.md R77, R78; spec/20_memory.md R54, R55). All of it is unsigned (R100). -/

namespace Sys2Proof.Machine

/-- The error response (R6, R163). -/
def sentinel : Word := 0xFFFF

/-- `n`, the length of the write, opcode included (R71, R72). -/
def argsLength : Args → Nat
  | .w2 _ => 2
  | .w3 _ _ => 3

/-- The channel code of a GTLM write: big-endian, `a1` its high byte (R54, R77). -/
def channelCode (a1 a2 : Byte) : Word := a1 ++ a2

/-- Byte 0 of a response: bits 7:0 (R55). -/
def responseLow (r : Word) : Byte := r.extractLsb' 0 8

/-- Byte 1 of a response: bits 15:8 (R55). -/
def responseHigh (r : Word) : Byte := r.extractLsb' 8 8

/-- The 16-bit value of a read's output, `out[1] ++ out[0]` (R84). -/
def replyValue : Reply → Option Word
  | .data (b0 :: b1 :: _) _ => some (b1 ++ b0)
  | .data _ _ => none
  | .ack _ => none

/-- `ACC_LEN3_MALFORMED` (R6, R78; decision D3, conflict C4): a 3-byte write of a simple accessor is malformed (log 8). -/
def accLen3Malformed : Bool := true

/-- The shape check of the nine simple accessors: `n == 2` and `a1 == 0x00` (R78, R110). Were `accLen3Malformed` false, a
3-byte write would pass with `a1 == 0x00`, its `a2` ignored (decision D3). -/
def accessorShape : Args → Bool
  | .w2 a1 => a1 == 0x00
  | .w3 a1 _ => !accLen3Malformed && a1 == 0x00

/-- SHTR's test of its argument, the negation of `a1 > 1` unsigned (R100, R140; decision D19). -/
def heaterInRange (a1 : Byte) : Bool := a1 ≤ 1

/-- `a1[0]`, the bit SHTR stores (R141). -/
def heaterBit (a1 : Byte) : Bit := a1.extractLsb' 0 1

/-- `zext_16` of the one-bit heater status (R37, R118). -/
def heaterWord (b : Bit) : Word := b.zeroExtend 16

end Sys2Proof.Machine
end

