-- ==== Sys2Proof/Machine/Ops.lean ====
section
/-! DEFINITION. The named operations the meanings are made of: writes to the Device's registers, recording a fault (what
this block has for taking an exception, spec/60_exceptions.md R160) and clearing the record (what it has for returning
from one, R166), the ends of a write and of a read, and the delivery of the next transaction. -/

namespace Sys2Proof.Machine

/-- The answer of a meaning. -/
abbrev Result := Host.Outcome State Fault Refusal

/-! ## The Device's registers -/

/-- `S.last_response <- v` (R23). -/
def Device.latch (d : Device) (v : Word) : Device := { d with last_response := v }

/-- `ClearFaults()`: bits 0 and 2 become 0 (R95). -/
def Device.clearFaults (d : Device) : Device :=
  { d with board_status := clearBits maskClearFaults d.board_status }

/-- `SetFault(m)`: the bit of `m` becomes 1 (R96). -/
def Device.setFault (d : Device) (m : Word) : Device :=
  { d with board_status := setBits m d.board_status }

/-- `S.board_status <- S.board_status & ~0x0008`, the clear of bit 3 (R92, R132). -/
def Device.clearTelemetry (d : Device) : Device :=
  { d with board_status := clearBits maskTelemetry d.board_status }

/-- `S.manual_resets <- (S.manual_resets + 1) mod 2^16` (R35, R119; decision D4; log 9). -/
def Device.countManualReset (d : Device) : Device := { d with manual_resets := d.manual_resets + 1 }

/-- `S.heater_controller_status <- b` (R37, R141). -/
def Device.setHeater (d : Device) (b : Bit) : Device := { d with heater_controller_status := b }

/-- An error answered with the sentinel (R163). -/
def Device.answerError (d : Device) : Device := d.latch sentinel

/-- RAISING A FAULT, all of it: the sticky bit and the sentinel (R160). No control transfer, nothing saved. -/
def Device.recordFault (d : Device) (m : Word) : Device := (d.setFault m).answerError

/-! ## The end of a transaction -/

/-- The end of a write: the Device as the command left it, and the returned count (R94). -/
def completeWrite (n : Nat) (d : Device) (s : State) : Result :=
  .next { s with dev := d, reply := some (.ack n) }

/-- The output bytes of a READ of `k` bytes: the response little-endian (R55, R150), then `k - 2` free bytes from the
`drawn`-th on (R152). -/
def readBytes (r : Word) (k drawn : Nat) : List Byte :=
  responseLow r :: responseHigh r :: (List.range (k - 2)).map fun j => Config.freeByte (drawn + j)

/-- The end of a READ of `k ≥ 2` bytes: the Device unchanged (R153), the count `k` (R151). -/
def completeRead (k : Nat) (s : State) : Result :=
  .next { s with
    reply := some (.data (readBytes s.dev.last_response k s.draws) k)
    draws := s.draws + (k - 2) }

/-! ## The bus -/

/-- The transaction the bus delivers next, and the state in which it runs (R62; log 1). -/
def deliver (s : State) : Option (Transaction × State) :=
  match s.bus with
  | [] => none
  | t :: rest => some (t, { s with bus := rest })

/-- With no transaction to deliver nothing happens: the block starts none itself (R164; log 2). -/
def idle (s : State) : Result := .next s

/-- The bus delivers this transaction before those that wait already. -/
def State.offer (s : State) (t : Transaction) : State := { s with bus := t :: s.bus }

/-- The refusal of a transaction that decodes to no instruction. -/
def refuseTransaction : DecodeReject → Result
  | .readBufferShort k => .refused (.readBufferShort k)

end Sys2Proof.Machine
end

