-- ==== Sys2Proof/Machine/Accessors.lean ====
section
/-! DEFINITION. The nine simple accessors (spec/41_accessors.md): GBS, GLE, GVER, GCS, GBOR, GASR, GMR, MRST, GHTR. -/

namespace Sys2Proof.Machine

/-- The malformed-argument path (R97): bit 2, the sentinel, and nothing else. -/
def malformed (args : Args) (s : State) : Result :=
  completeWrite (argsLength args) (s.dev.recordFault maskMalformed) s

/-- The common behaviour of the nine (R110): clear bits 0 and 2, then the opcode's extra effect, then the value of the
opcode, computed after the clear (decision D17; log 11). -/
def simpleAccessor (args : Args) (effect : Device → Device) (value : Device → Word) (s : State) : Result :=
  if accessorShape args then
    let d := effect s.dev.clearFaults
    completeWrite (argsLength args) (d.latch (value d)) s
  else malformed args s

/-- GBS (R111): `board_status` as it stands after `ClearFaults()`. -/
def execGbs (args : Args) (s : State) : Result := simpleAccessor args id (fun d => d.board_status) s

/-- GLE (R112). -/
def execGle (args : Args) (s : State) : Result := simpleAccessor args id (fun d => d.last_error) s

/-- GVER (R24, R113). -/
def execGver (args : Args) (s : State) : Result := simpleAccessor args id (fun d => d.version) s

/-- GCS (R25, R114). -/
def execGcs (args : Args) (s : State) : Result := simpleAccessor args id (fun d => d.checksum) s

/-- GBOR (R115). -/
def execGbor (args : Args) (s : State) : Result := simpleAccessor args id (fun d => d.brownout_resets) s

/-- GASR (R116). -/
def execGasr (args : Args) (s : State) : Result := simpleAccessor args id (fun d => d.auto_software_resets) s

/-- GMR (R117). -/
def execGmr (args : Args) (s : State) : Result := simpleAccessor args id (fun d => d.manual_resets) s

/-- MRST (R119): counts, and answers 0, not the counter. It resets nothing. -/
def execMrst (args : Args) (s : State) : Result := simpleAccessor args Device.countManualReset (fun _ => 0x0000) s

/-- GHTR (R118). -/
def execGhtr (args : Args) (s : State) : Result :=
  simpleAccessor args id (fun d => heaterWord d.heater_controller_status) s

end Sys2Proof.Machine
end

