-- ==== Sys2Proof/Machine/Heater.lean ====
section
/-! DEFINITION. SHTR (spec/43_heater.md), the one command that stores an argument. -/

namespace Sys2Proof.Machine

/-- SHTR of length 2 on the Device (R140): bits 0 and 2 are cleared even when the value is rejected (R142). -/
def requestHeater (a1 : Byte) (d : Device) : Device :=
  if heaterInRange a1 then (d.clearFaults.setHeater (heaterBit a1)).latch 0x0000
  else d.clearFaults.answerError

/-- SHTR (R140). With length 3 it is malformed and examines no argument (R143). -/
def execShtr (args : Args) (s : State) : Result :=
  match args with
  | .w2 a1 => completeWrite 2 (requestHeater a1 s.dev) s
  | .w3 _ _ => malformed args s

end Sys2Proof.Machine
end

