-- ==== Sys2Proof/Machine/Invalid.lean ====
section
/-! DEFINITION. The two writes that name no command: UNKNOWN and BADLEN (spec/40_dispatch.md R99, R91). -/

namespace Sys2Proof.Machine

/-- UNKNOWN (R99): bit 0 and the sentinel; the arguments are not examined. -/
def execUnknown (_op : Byte) (args : Args) (s : State) : Result :=
  completeWrite (argsLength args) (s.dev.recordFault maskUnknown) s

/-- BADLEN (R91): the sentinel only; the returned count is 2 whatever the length. -/
def execBadlen (_w : List Byte) (s : State) : Result :=
  completeWrite 2 s.dev.answerError s

end Sys2Proof.Machine
end

