-- ==== Sys2Proof/Machine/Read.lean ====
section
/-! DEFINITION. READ (spec/44_read.md). -/

namespace Sys2Proof.Machine

/-- READ (R150); with fewer than two bytes it has no meaning and is refused (R154). -/
def execRead (k : Nat) (s : State) : Result :=
  if k < 2 then refuseTransaction (.readBufferShort k) else completeRead k s

end Sys2Proof.Machine
end

