-- ==== Sys2Proof/Machine/Telemetry.lean ====
section
/-! DEFINITION. GTLM and the telemetry ROM lookup (spec/42_telemetry.md). The table is an argument of everything here but
the meaning, which takes the OPEN parameter `Config.tlmRom`. -/

namespace Sys2Proof.Machine

/-- `RomLookup(code)` (R131): the reading and 0, or the sentinel and 1; exact equality on all 16 bits. -/
def romLookup (rom : TlmRom) (code : Word) : Word × Bool :=
  match rom.entries.find? fun e => e.1 == code with
  | some e => (e.2, false)
  | none => (sentinel, true)

/-- GTLM of length 3 on the Device (R130): clear bits 0 and 2, then bit 3 set (R133) or cleared (R132), then the latch. -/
def readChannel (rom : TlmRom) (code : Word) (d : Device) : Device :=
  let found := romLookup rom code
  let d := d.clearFaults
  (if found.2 then d.setFault maskTelemetry else d.clearTelemetry).latch found.1

/-- GTLM for a given table (R130). With the wrong length it clears bits 0 and 2 and answers the sentinel (R134). -/
def getTelemetry (rom : TlmRom) (args : Args) (s : State) : Result :=
  match args with
  | .w2 _ => completeWrite 2 s.dev.clearFaults.answerError s
  | .w3 a1 a2 => completeWrite 3 (readChannel rom (channelCode a1 a2) s.dev) s

/-- GTLM (R130). -/
def execGtlm (args : Args) (s : State) : Result := getTelemetry Config.tlmRom args s

end Sys2Proof.Machine
end

