-- ==== Sys2Proof/Machine/Dispatch.lean ====
section
/-! DEFINITION. One arm per instruction (spec/40_dispatch.md R92; spec/44_read.md R150). -/

namespace Sys2Proof.Machine

def exec (i : Instr) (s : State) : Host.Outcome State Fault Refusal :=
  match i with
  | .gbs args => Sys2Proof.Machine.execGbs args s
  | .gle args => Sys2Proof.Machine.execGle args s
  | .gver args => Sys2Proof.Machine.execGver args s
  | .gcs args => Sys2Proof.Machine.execGcs args s
  | .gtlm args => Sys2Proof.Machine.execGtlm args s
  | .gbor args => Sys2Proof.Machine.execGbor args s
  | .gasr args => Sys2Proof.Machine.execGasr args s
  | .gmr args => Sys2Proof.Machine.execGmr args s
  | .mrst args => Sys2Proof.Machine.execMrst args s
  | .ghtr args => Sys2Proof.Machine.execGhtr args s
  | .shtr args => Sys2Proof.Machine.execShtr args s
  | .unknown op args => Sys2Proof.Machine.execUnknown op args s
  | .badlen w => Sys2Proof.Machine.execBadlen w s
  | .read k => Sys2Proof.Machine.execRead k s

end Sys2Proof.Machine
end

