-- ==== Sys2Proof/Machine/Step.lean ====
section
/-! DEFINITION. One step: the next transaction, decoded and run as a whole (spec/00_scope.md R5; spec/20_memory.md R61, R62). -/

namespace Sys2Proof.Machine

/-- One transaction, whole and atomic (R5, R61). -/
def step (s : State) : Host.Outcome State Fault Refusal :=
  match deliver s with
  | none => idle s
  | some (t, s') =>
    match decode t with
    | .ok i => exec i s'
    | .error reason => refuseTransaction reason

/-- The master sends the write that a frame word of spec/opcode_table.json presents: it is the next transaction (log 1, 14). -/
def State.withFetchWord (s : State) (nbits w : Nat) : State :=
  s.offer (.write (frameBytes nbits w))

end Sys2Proof.Machine
end

