-- ==== Sys2Proof/Machine/Instances.lean ====
section
/-! DEFINITION. Several Devices (spec/60_exceptions.md R172): a system of `n` instances is the product of `n` machines. Which
instance a transaction reaches is the bus adapter's choice, so it is an argument (log 17). -/

namespace Sys2Proof.Machine

/-- One step of instance `i` (R172): it reads and writes that instance's state only. -/
def stepInstance {n : Nat} (i : Fin n) (sys : Vector State n) : Host.Outcome (Vector State n) Fault Refusal :=
  match step sys[i] with
  | .next t => .next (sys.set i t)
  | .fault r => .fault r
  | .refused r => .refused r

/-- Creation of a system: every instance at the fixed defaults (R190, R172). -/
def resetInstances (n : Nat) : Vector State n := Vector.replicate n State.reset

end Sys2Proof.Machine
end

