-- ==== Sys2Proof/Machine/Reference.lean ====
section
/-! DEFINITION. The spec's normative summary of the write phase, `WriteStep(S, w) = (S', ack)` (spec/40_dispatch.md R92),
written out from its pseudocode with the spec's own literals. The step does not call it: it is what the claims hold the
decoder and the meanings against. Only the telemetry lookup (R131) is shared with them. -/

namespace Sys2Proof.Machine

/-- The opcodes of the simple accessors, as R92 lists them. -/
def accessorOpcodes : List Byte := [0x01, 0x03, 0x04, 0x05, 0x31, 0x32, 0x33, 0x80, 0x90]

/-- `AccessorValue(S, op)` (R92). -/
def accessorValue (d : Device) (op : Byte) : Word :=
  if op = 0x01 then d.board_status
  else if op = 0x03 then d.last_error
  else if op = 0x04 then 0x1001
  else if op = 0x05 then 0xBEEF
  else if op = 0x31 then d.brownout_resets
  else if op = 0x32 then d.auto_software_resets
  else if op = 0x33 then d.manual_resets
  else if op = 0x80 then 0x0000
  else BitVec.setWidth 16 d.heater_controller_status

/-- `ClearFaults()` of R92, as R95 also writes it: `& 0xFFFA`. -/
def withoutFaults (d : Device) : Device := { d with board_status := d.board_status &&& 0xFFFA }

/-- `WriteStep` (R92) for a table `rom`. -/
def writeStep (rom : TlmRom) (d : Device) (w : List Byte) : Device × Nat :=
  let n := w.length
  if n ≠ 2 ∧ n ≠ 3 then ({ d with last_response := 0xFFFF }, 2)
  else
    let op := w.getD 0 0
    let a1 := w.getD 1 0
    let d' :=
      if op ∈ accessorOpcodes then
        if n = 2 ∧ a1 = 0x00 then
          let c := withoutFaults d
          let c := if op = 0x80 then { c with manual_resets := c.manual_resets + 1 } else c
          { c with last_response := accessorValue c op }
        else { d with board_status := d.board_status ||| 0x0004, last_response := 0xFFFF }
      else if op = 0x10 then
        if n ≠ 3 then { withoutFaults d with last_response := 0xFFFF }
        else
          let c := withoutFaults d
          let found := romLookup rom (w.getD 1 0 ++ w.getD 2 0)
          let status := if found.2 then c.board_status ||| 0x0008 else c.board_status &&& 0xFFF7
          { c with board_status := status, last_response := found.1 }
      else if op = 0x91 then
        if n ≠ 2 then { d with board_status := d.board_status ||| 0x0004, last_response := 0xFFFF }
        else
          let c := withoutFaults d
          if 1 < a1.toNat then { c with last_response := 0xFFFF }
          else { c with heater_controller_status := a1.extractLsb' 0 1, last_response := 0x0000 }
      else { d with board_status := d.board_status ||| 0x0001, last_response := 0xFFFF }
    (d', n)

end Sys2Proof.Machine
end

