-- ==== Sys2Proof/Safety.lean ====
section
/-! DEFINITION. The terms the claims are stated in: the invariant of a Device, the states a run reaches, the six error
conditions, and what a sequence of transactions leaves behind. Nothing here takes part in a step. -/

namespace Sys2Proof.Machine

/-! ## The invariant -/

/-- What holds of a Device at every moment: the reserved bits of `board_status` are 0 (R26, R31) and the registers that no
command writes hold their reset values (R24, R25, R34, R36). -/
structure Device.Legal (d : Device) : Prop where
  reserved : d.board_status &&& 0xFFF2 = 0
  version : d.version = 0x1001
  checksum : d.checksum = 0xBEEF
  brownout : d.brownout_resets = 0
  auto_software : d.auto_software_resets = 0
  last_error : d.last_error = 0

/-- The eight values of `board_status` with bits drawn from 0, 2 and 3 (R31). -/
def legalStatuses : List Word := [0x0000, 0x0001, 0x0004, 0x0005, 0x0008, 0x0009, 0x000C, 0x000D]

/-- A state of some run from reset, whatever the master sends (R38, R62). -/
inductive Reachable : State → Prop where
  | start (bus : List Transaction) : Reachable { State.reset with bus := bus }
  | step {s t : State} : Reachable s → Machine.step s = .next t → Reachable t

/-! ## The error conditions (R161) -/

/-- The six error conditions, by their ids in R161. -/
inductive ErrorCondition where
  /-- E0, unknown command -/
  | unknownCommand
  /-- E2, malformed argument -/
  | malformedArgument
  /-- E3, invalid telemetry channel -/
  | invalidChannel
  /-- EL, invalid write length -/
  | invalidLength
  /-- ET, telemetry length mismatch -/
  | telemetryLength
  /-- EH, heater value out of range -/
  | heaterRange
deriving DecidableEq, Repr

/-- The mask of the bit the condition sets, 0 for none (R161). -/
def ErrorCondition.mask : ErrorCondition → Word
  | .unknownCommand => 0x0001
  | .malformedArgument => 0x0004
  | .invalidChannel => 0x0008
  | .invalidLength | .telemetryLength | .heaterRange => 0x0000

/-- Whether `ClearFaults()` is also done (R161). -/
def ErrorCondition.clears : ErrorCondition → Bool
  | .unknownCommand | .malformedArgument | .invalidLength => false
  | .invalidChannel | .telemetryLength | .heaterRange => true

/-- What the condition does to a Device (R160, R161): `ClearFaults()` where it says so, the bit, the sentinel. -/
def ErrorCondition.record (e : ErrorCondition) (d : Device) : Device :=
  { d with
    board_status := (if e.clears then d.board_status &&& 0xFFFA else d.board_status) ||| e.mask
    last_response := 0xFFFF }

/-- The code has a reading in the table. -/
def defines (rom : TlmRom) (code : Word) : Prop := ∃ v, (code, v) ∈ rom.entries

/-- When a write raises a condition, column 'raised by' of R161, in terms of its bytes. -/
def ErrorCondition.raisedBy (rom : TlmRom) (w : List Byte) : ErrorCondition → Prop
  | .invalidLength => w.length ≠ 2 ∧ w.length ≠ 3
  | .unknownCommand => ∃ op args, w = op :: Args.bytes args ∧ unassigned op = true
  | .malformedArgument =>
      (∃ op ∈ accessorOpcodes, (∃ a1, a1 ≠ 0x00 ∧ w = [op, a1]) ∨ ∃ a1 a2, w = [op, a1, a2]) ∨
        ∃ a1 a2, w = [0x91, a1, a2]
  | .invalidChannel => ∃ a1 a2 : Byte, w = [0x10, a1, a2] ∧ ¬ defines rom (a1 ++ a2)
  | .telemetryLength => ∃ a1, w = [0x10, a1]
  | .heaterRange => ∃ a1 : Byte, 2 ≤ a1.toNat ∧ w = [0x91, a1]

/-! ## Runs -/

/-- The state after the transactions `ts`, sent one after the other to the machine in state `s` before any that wait;
none if a transaction is refused on the way. -/
def after : List Transaction → State → Option State
  | [], s => some s
  | t :: ts, s =>
    match step (s.offer t) with
    | .next s' => after ts s'
    | .fault _ => none
    | .refused _ => none

/-- The Device after the transactions `ts` (R10). -/
def deviceAfter (ts : List Transaction) (s : State) : Option Device := (after ts s).map (·.dev)

/-- The outputs of the last of the transactions `ts` (R10). -/
def replyAfter (ts : List Transaction) (s : State) : Option Reply := (after ts s).bind (·.reply)

/-- The part of a reply the block determines: a read's bytes at index 2 and above are free (R74, R152). -/
def Reply.determined : Reply → Reply
  | .data out produced => .data (out.take 2) produced
  | .ack n => .ack n

/-- The determined part of the outputs of the last of the transactions `ts`. -/
def answerAfter (ts : List Transaction) (s : State) : Option Reply := (replyAfter ts s).map Reply.determined

end Sys2Proof.Machine
end

