-- ==== Sys2Proof/Certificates/Slice0/Obligations.lean ====
section
/-! DEFINITION. The statements for the provers. Literals are the spec's own, not the model's constants. A statement that
gives the whole next state is at once its instruction's result, its frame and its completion: every field that the record
update does not name (the other registers, the bits of the status register that the mask keeps, the waiting
transactions, the count of free bytes drawn) is that of the state before. -/

open Sys2Proof Sys2Proof.Machine

/-! ## Encoding -/

/-- Words written out from the formats (R71 to R74), the opcode map (R76) and the unassigned opcodes (R79): for each family
one in each of its formats, W2 and W3 of the simple accessors, of GTLM, of SHTR and of UNKNOWN; BADLEN; RD. -/
def Obligations.FramesDecodeToTheirCommands : Prop :=
  decode (.write [0x01, 0x00]) = .ok (.gbs (.w2 0x00)) ∧
  decode (.write [0x04, 0x00, 0x55]) = .ok (.gver (.w3 0x00 0x55)) ∧
  decode (.write [0x33, 0x07]) = .ok (.gmr (.w2 0x07)) ∧
  decode (.write [0x80, 0x00]) = .ok (.mrst (.w2 0x00)) ∧
  decode (.write [0x10, 0xE2]) = .ok (.gtlm (.w2 0xE2)) ∧
  decode (.write [0x10, 0xE2, 0x80]) = .ok (.gtlm (.w3 0xE2 0x80)) ∧
  decode (.write [0x91, 0x01]) = .ok (.shtr (.w2 0x01)) ∧
  decode (.write [0x91, 0x01, 0x00]) = .ok (.shtr (.w3 0x01 0x00)) ∧
  decode (.write [0x02, 0x00]) = .ok (.unknown 0x02 (.w2 0x00)) ∧
  decode (.write [0x92, 0x00, 0x01]) = .ok (.unknown 0x92 (.w3 0x00 0x01)) ∧
  decode (.write [0x80, 0x00, 0x00, 0x00]) = .ok (.badlen [0x80, 0x00, 0x00, 0x00]) ∧
  decode (.read 2) = .ok (.read 2)

/-- DECODE AND ENCODE AGREE: every well-formed instruction, with every operand the encoding admits, is read back from its
transaction (R70 to R76). -/
def Obligations.DecodeAfterEncodeGivesTheInstruction : Prop :=
  ∀ i : Instr, i.wellFormed = true → decode (encode i) = .ok i

/-- The other direction: a transaction that decodes is the encoding of what it decodes to, which is well-formed. So each
transaction has one meaning, and no two transactions share an instruction. -/
def Obligations.EncodeAfterDecodeGivesTheTransaction : Prop :=
  ∀ (t : Transaction) (i : Instr), decode t = .ok i → encode i = t ∧ i.wellFormed = true

/-- The format of a write is decided by its length alone (R73), before any byte is interpreted (R81): a write is BADLEN
exactly when its length is neither 2 nor 3. -/
def Obligations.OnlyTheLengthMakesAWriteBadlen : Prop :=
  ∀ w : List Byte, (∃ w', decode (.write w) = .ok (.badlen w')) ↔ w.length ≠ 2 ∧ w.length ≠ 3

/-! ## The step -/

/-- A STEP RUNS THE DECODED INSTRUCTION: where the transaction that the bus delivers next decodes to an instruction, the
step is that instruction's meaning, in the state in which that transaction is delivered and the others wait as before
(R5, R62; log 1). -/
def Obligations.StepRunsTheDecodedTransaction : Prop :=
  ∀ (s : State) (t : Transaction) (rest : List Transaction) (i : Instr),
    s.bus = t :: rest → decode t = .ok i → step s = exec i { s with bus := rest }

/-- A frame word of spec/opcode_table.json, sent as the next write, is run as the instruction it decodes to. The place of
the waiting transactions is the model's choice (log 1), and byte 0 is the most significant byte of the word (log 14). -/
def Obligations.FrameWordRunsAsTheNextTransaction : Prop :=
  ∀ (s : State) (nbits w : Nat) (i : Instr),
    decodeTableWord nbits w = some i → step (s.withFetchWord nbits w) = exec i s

/-- With no transaction to deliver, nothing happens. The model's choice (log 2). -/
def Obligations.StepWithoutATransactionChangesNothing : Prop :=
  ∀ s : State, s.bus = [] → step s = .next s

/-- "All failures are local and non-fatal": every step answers a next state but one that delivers a READ of fewer than
two bytes, which is refused by name (R103, R160; the refusal is decision D8, log 5). -/
def Obligations.OnlyAShortReadIsRefused : Prop :=
  ∀ s : State,
    (∃ t, step s = .next t ∧ t.bus = s.bus.tail) ∨
    (∃ k rest, s.bus = .read k :: rest ∧ k < 2 ∧ step s = .refused (.readBufferShort k))

/-- The write step is the spec's normative pseudocode (R92), for every byte sequence of every length. A Device whose
`version` and `checksum` are not the constants is ruled out, since the pseudocode answers the literals (log 21). The
pseudocode rests in part on decisions of the spec: the 3-byte accessor (D3, log 8), the width of the counter (D4, log 9),
the order of clear and compute (D17, log 11). -/
def Obligations.WriteRunsTheNormativePseudocode : Prop :=
  ∀ (s : State) (w : List Byte) (rest : List Transaction),
    s.dev.Legal → s.bus = .write w :: rest →
    step s = .next { s with
      dev := (writeStep Config.tlmRom s.dev w).1
      bus := rest
      reply := some (.ack (writeStep Config.tlmRom s.dev w).2) }

/-! ## Reset and the invariant -/

/-- The Device after reset, field by field (R191). That `last_response` is 0 is the spec's resolution C1 of what its source
says (log 12). -/
def Obligations.ResetDeviceHoldsTheStatedValues : Prop :=
  State.reset.dev.last_response = 0x0000 ∧ State.reset.dev.board_status = 0x0000 ∧
  State.reset.dev.version = 0x1001 ∧ State.reset.dev.checksum = 0xBEEF ∧
  State.reset.dev.brownout_resets = 0x0000 ∧ State.reset.dev.auto_software_resets = 0x0000 ∧
  State.reset.dev.manual_resets = 0x0000 ∧ State.reset.dev.heater_controller_status = 1 ∧
  State.reset.dev.last_error = 0x0000

/-- What the master observes right after reset (R193). -/
def Obligations.FirstQueriesAfterReset : Prop :=
  answerAfter [.read 2] State.reset = some (.data [0x00, 0x00] 2) ∧
  answerAfter [.write [0x01, 0x00], .read 2] State.reset = some (.data [0x00, 0x00] 2) ∧
  answerAfter [.write [0x03, 0x00], .read 2] State.reset = some (.data [0x00, 0x00] 2) ∧
  answerAfter [.write [0x04, 0x00], .read 2] State.reset = some (.data [0x01, 0x10] 2) ∧
  answerAfter [.write [0x05, 0x00], .read 2] State.reset = some (.data [0xEF, 0xBE] 2) ∧
  answerAfter [.write [0x31, 0x00], .read 2] State.reset = some (.data [0x00, 0x00] 2) ∧
  answerAfter [.write [0x32, 0x00], .read 2] State.reset = some (.data [0x00, 0x00] 2) ∧
  answerAfter [.write [0x33, 0x00], .read 2] State.reset = some (.data [0x00, 0x00] 2) ∧
  answerAfter [.write [0x90, 0x00], .read 2] State.reset = some (.data [0x01, 0x00] 2)

/-- The reset Device meets the invariant of the next statement (R31). -/
def Obligations.ResetDeviceIsLegal : Prop :=
  State.reset.dev.Legal

/-- AN INVARIANT THAT EVERY STEP KEEPS, from every state that meets it: the reserved bits of `board_status` are 0, and the
registers that no command writes hold their reset values (R24, R25, R31, R34, R36). That bits 1 and 15:4 are reserved is the
spec's decision D18 (log 10), and that MRST resets nothing is decision D13 (log 23). -/
def Obligations.StepKeepsTheDeviceLegal : Prop :=
  ∀ s t : State, s.dev.Legal → step s = .next t → t.dev.Legal

/-- `board_status` takes the eight values with bits drawn from 0, 2 and 3, all of them, and no other, over the runs from
reset with any waiting transactions (R31, R175). The step lemma behind 'no other' is `StepKeepsTheDeviceLegal`, with
`ResetDeviceIsLegal`. That the other bits are reserved is the spec's decision D18 (log 10). -/
def Obligations.StatusTakesExactlyEightValues : Prop :=
  ∀ v : Word, (∃ s, Reachable s ∧ s.dev.board_status = v) ↔ v ∈ legalStatuses

/-! ## The simple accessors -/

/-- GBS (R110, R111): the status as it stands after bits 0 and 2 are cleared, which can only be 0x0000 or 0x0008. That
the clear comes first is the spec's reading of its source (decision D17; log 11). -/
def Obligations.GbsAnswersTheStatusAfterTheClear : Prop :=
  (∀ s : State, exec (.gbs (.w2 0x00)) s = .next { s with
    dev := { s.dev with
      board_status := s.dev.board_status &&& 0xFFFA
      last_response := s.dev.board_status &&& 0xFFFA }
    reply := some (.ack 2) }) ∧
  (∀ d : Device, d.Legal → d.board_status &&& 0xFFFA = 0x0000 ∨ d.board_status &&& 0xFFFA = 0x0008)

/-- GLE (R112): `last_error`, which is 0 whatever faults are recorded. -/
def Obligations.GleAnswersLastError : Prop :=
  decode (.write [0x03, 0x00]) = .ok (.gle (.w2 0x00)) ∧
  (∀ s : State, exec (.gle (.w2 0x00)) s = .next { s with
    dev := { s.dev with
      board_status := s.dev.board_status &&& 0xFFFA
      last_response := s.dev.last_error }
    reply := some (.ack 2) }) ∧
  (∀ s : State, s.dev.Legal → exec (.gle (.w2 0x00)) s = .next { s with
    dev := { s.dev with
      board_status := s.dev.board_status &&& 0xFFFA
      last_response := 0x0000 }
    reply := some (.ack 2) }) ∧
  answerAfter [.write [0x03, 0x00], .read 2] State.reset = some (.data [0x00, 0x00] 2)

/-- GVER (R113): the constant 0x1001. The model answers the register `version`, which is that constant in every legal
Device (log 21). -/
def Obligations.GverAnswersTheVersion : Prop :=
  decode (.write [0x04, 0x00]) = .ok (.gver (.w2 0x00)) ∧
  (∀ s : State, s.dev.Legal → exec (.gver (.w2 0x00)) s = .next { s with
    dev := { s.dev with
      board_status := s.dev.board_status &&& 0xFFFA
      last_response := 0x1001 }
    reply := some (.ack 2) }) ∧
  answerAfter [.write [0x04, 0x00], .read 2] State.reset = some (.data [0x01, 0x10] 2)

/-- GCS (R114): the constant 0xBEEF. The model answers the register `checksum`, which is that constant in every legal
Device (log 21). -/
def Obligations.GcsAnswersTheChecksum : Prop :=
  decode (.write [0x05, 0x00]) = .ok (.gcs (.w2 0x00)) ∧
  (∀ s : State, s.dev.Legal → exec (.gcs (.w2 0x00)) s = .next { s with
    dev := { s.dev with
      board_status := s.dev.board_status &&& 0xFFFA
      last_response := 0xBEEF }
    reply := some (.ack 2) }) ∧
  answerAfter [.write [0x05, 0x00], .read 2] State.reset = some (.data [0xEF, 0xBE] 2)

/-- GBOR (R115): `brownout_resets`, which is always 0. -/
def Obligations.GborAnswersTheBrownoutCount : Prop :=
  decode (.write [0x31, 0x00]) = .ok (.gbor (.w2 0x00)) ∧
  (∀ s : State, exec (.gbor (.w2 0x00)) s = .next { s with
    dev := { s.dev with
      board_status := s.dev.board_status &&& 0xFFFA
      last_response := s.dev.brownout_resets }
    reply := some (.ack 2) }) ∧
  (∀ s : State, s.dev.Legal → exec (.gbor (.w2 0x00)) s = .next { s with
    dev := { s.dev with
      board_status := s.dev.board_status &&& 0xFFFA
      last_response := 0x0000 }
    reply := some (.ack 2) }) ∧
  answerAfter [.write [0x31, 0x00], .read 2] State.reset = some (.data [0x00, 0x00] 2)

/-- GASR (R116): `auto_software_resets`, which is always 0. -/
def Obligations.GasrAnswersTheSoftwareResetCount : Prop :=
  decode (.write [0x32, 0x00]) = .ok (.gasr (.w2 0x00)) ∧
  (∀ s : State, exec (.gasr (.w2 0x00)) s = .next { s with
    dev := { s.dev with
      board_status := s.dev.board_status &&& 0xFFFA
      last_response := s.dev.auto_software_resets }
    reply := some (.ack 2) }) ∧
  (∀ s : State, s.dev.Legal → exec (.gasr (.w2 0x00)) s = .next { s with
    dev := { s.dev with
      board_status := s.dev.board_status &&& 0xFFFA
      last_response := 0x0000 }
    reply := some (.ack 2) }) ∧
  answerAfter [.write [0x32, 0x00], .read 2] State.reset = some (.data [0x00, 0x00] 2)

/-- GMR (R117): `manual_resets`, which it does not change. What that counter counts is `ManualResetsCountWellFormedMrst`. -/
def Obligations.GmrAnswersTheManualResetCount : Prop :=
  decode (.write [0x33, 0x00]) = .ok (.gmr (.w2 0x00)) ∧
  (∀ s : State, exec (.gmr (.w2 0x00)) s = .next { s with
    dev := { s.dev with
      board_status := s.dev.board_status &&& 0xFFFA
      last_response := s.dev.manual_resets }
    reply := some (.ack 2) }) ∧
  answerAfter [.write [0x80, 0x00], .write [0x33, 0x00], .read 2] State.reset = some (.data [0x01, 0x00] 2)

/-- GHTR (R118): the one-bit status zero-extended, 0x0001 for on and 0x0000 for off. The extension is the spec's decision
D15 (log 19). -/
def Obligations.GhtrAnswersTheHeaterStatus : Prop :=
  decode (.write [0x90, 0x00]) = .ok (.ghtr (.w2 0x00)) ∧
  (∀ s : State, exec (.ghtr (.w2 0x00)) s = .next { s with
    dev := { s.dev with
      board_status := s.dev.board_status &&& 0xFFFA
      last_response := if s.dev.heater_controller_status = 1 then 0x0001 else 0x0000 }
    reply := some (.ack 2) }) ∧
  answerAfter [.write [0x91, 0x00], .write [0x90, 0x00], .read 2] State.reset = some (.data [0x00, 0x00] 2) ∧
  answerAfter [.write [0x90, 0x00], .read 2] State.reset = some (.data [0x01, 0x00] 2)

/-- MRST (R119): clears bits 0 and 2, counts, answers 0, and writes nothing else: it resets nothing. The counter's width
and its wrap at 0xFFFF are the spec's decision D4 (log 9), and that there is no other effect is decision D13 (log 23). -/
def Obligations.MrstCountsAndAnswersZero : Prop :=
  decode (.write [0x80, 0x00]) = .ok (.mrst (.w2 0x00)) ∧
  (∀ s : State, ∃ count : Word, count.toNat = (s.dev.manual_resets.toNat + 1) % 2 ^ 16 ∧
    exec (.mrst (.w2 0x00)) s = .next { s with
      dev := { s.dev with
        board_status := s.dev.board_status &&& 0xFFFA
        manual_resets := count
        last_response := 0x0000 }
      reply := some (.ack 2) })

/-- A non-zero argument byte to any of the nine simple accessors, MRST among them (R97, R110): bit 2 is set, the sentinel
is latched, and nothing else changes, the counter included. -/
def Obligations.AccessorWithANonZeroArgumentIsMalformed : Prop :=
  ∀ command ∈ ([.gbs, .gle, .gver, .gcs, .gbor, .gasr, .gmr, .mrst, .ghtr] : List (Args → Instr)),
    ∀ a1 : Byte, a1 ≠ 0x00 → ∀ s : State, exec (command (.w2 a1)) s = .next { s with
      dev := { s.dev with
        board_status := s.dev.board_status ||| 0x0004
        last_response := 0xFFFF }
      reply := some (.ack 2) }

/-- A 3-byte write of any of the nine simple accessors is malformed whatever its argument bytes are. The spec's source
contradicts itself here: this is the spec's resolution C4, decision D3 (log 8). -/
def Obligations.AccessorOfThreeBytesIsMalformed : Prop :=
  ∀ command ∈ ([.gbs, .gle, .gver, .gcs, .gbor, .gasr, .gmr, .mrst, .ghtr] : List (Args → Instr)),
    ∀ (a1 a2 : Byte) (s : State), exec (command (.w3 a1 a2)) s = .next { s with
      dev := { s.dev with
        board_status := s.dev.board_status ||| 0x0004
        last_response := 0xFFFF }
      reply := some (.ack 3) }

/-! ## Telemetry -/

/-- `RomLookup` (R131): a pure function; the pair's value and 0 where the code has one, the sentinel and 1 where it has
none. For every table, not only the block's. -/
def Obligations.RomLookupFindsExactlyThePairs : Prop :=
  ∀ (rom : TlmRom) (code : Word),
    (∀ v, (code, v) ∈ rom.entries → romLookup rom code = (v, false)) ∧
    ((∀ v, (code, v) ∉ rom.entries) → romLookup rom code = (0xFFFF, true))

/-- Of the 65536 channel codes exactly sixteen are defined, and every other one selects the telemetry fault (R50). -/
def Obligations.SixteenChannelCodesAreDefined : Prop :=
  ∀ rom : TlmRom, ∃ codes : List Word, codes.Nodup ∧ codes.length = 16 ∧
    ∀ code : Word, (romLookup rom code).2 = true ↔ code ∉ codes

/-- GTLM of a defined channel (R132): bits 0, 2 and 3 are cleared, so the whole status of a legal Device is 0, and the
reading is latched unchanged. The code is `a1`, `a2` big-endian (R54). -/
def Obligations.GtlmOfADefinedChannel : Prop :=
  (∀ (a1 a2 : Byte) (code v : Word) (s : State),
    code.toNat = 256 * a1.toNat + a2.toNat → (code, v) ∈ Config.tlmRom.entries →
    exec (.gtlm (.w3 a1 a2)) s = .next { s with
      dev := { s.dev with
        board_status := s.dev.board_status &&& 0xFFF2
        last_response := v }
      reply := some (.ack 3) }) ∧
  (∀ d : Device, d.Legal → d.board_status &&& 0xFFF2 = 0x0000)

/-- GTLM of an undefined channel (R133): bits 0 and 2 are cleared, bit 3 is set, the sentinel is latched. With the example
of the rule, from reset and from a status of 0x0005. -/
def Obligations.GtlmOfAnUndefinedChannel : Prop :=
  ∀ (a1 a2 : Byte) (code : Word),
    code.toNat = 256 * a1.toNat + a2.toNat → (∀ v, (code, v) ∉ Config.tlmRom.entries) →
    (∀ s : State, exec (.gtlm (.w3 a1 a2)) s = .next { s with
      dev := { s.dev with
        board_status := (s.dev.board_status &&& 0xFFFA) ||| 0x0008
        last_response := 0xFFFF }
      reply := some (.ack 3) }) ∧
    (∀ s : State, s.dev.board_status = 0x0005 → (deviceAfter [.write [0x10, a1, a2]] s).map (·.board_status) = some 0x0008) ∧
    (deviceAfter [.write [0x10, a1, a2]] State.reset).map (·.board_status) = some 0x0008 ∧
    answerAfter [.write [0x10, a1, a2], .read 2] State.reset = some (.data [0xFF, 0xFF] 2)

/-- GTLM with the wrong length (R134): it clears bits 0 and 2 instead of setting bit 2, keeps bit 3, makes no lookup and
does not examine its argument. With the examples of the rule. -/
def Obligations.GtlmOfTwoBytesClearsTheFaults : Prop :=
  ∀ a1 : Byte, decode (.write [0x10, a1]) = .ok (.gtlm (.w2 a1)) ∧
    (∀ s : State, exec (.gtlm (.w2 a1)) s = .next { s with
      dev := { s.dev with
        board_status := s.dev.board_status &&& 0xFFFA
        last_response := 0xFFFF }
      reply := some (.ack 2) }) ∧
    (∀ s : State, s.dev.board_status = 0x0005 → (deviceAfter [.write [0x10, a1]] s).map (·.board_status) = some 0x0000) ∧
    (∀ s : State, s.dev.board_status = 0x000D → (deviceAfter [.write [0x10, a1]] s).map (·.board_status) = some 0x0008)

/-! ## The heater -/

/-- SHTR in range (R141): bit 0 of the argument is stored, and the result is 0. With the examples of the rule. -/
def Obligations.ShtrInRangeStoresTheBit : Prop :=
  (∀ s : State, exec (.shtr (.w2 0x00)) s = .next { s with
    dev := { s.dev with
      board_status := s.dev.board_status &&& 0xFFFA
      heater_controller_status := 0
      last_response := 0x0000 }
    reply := some (.ack 2) }) ∧
  (∀ s : State, exec (.shtr (.w2 0x01)) s = .next { s with
    dev := { s.dev with
      board_status := s.dev.board_status &&& 0xFFFA
      heater_controller_status := 1
      last_response := 0x0000 }
    reply := some (.ack 2) }) ∧
  (deviceAfter [.write [0x91, 0x00]] State.reset).map (fun d => (d.heater_controller_status, d.last_response)) =
    some (0, 0x0000) ∧
  (deviceAfter [.write [0x91, 0x00], .write [0x91, 0x01]] State.reset).map
    (fun d => (d.heater_controller_status, d.last_response)) = some (1, 0x0000) ∧
  answerAfter [.write [0x91, 0x00], .write [0x90, 0x00], .read 2] State.reset = some (.data [0x00, 0x00] 2)

/-- SHTR out of range (R142): the value is rejected by the sentinel alone, and bits 0 and 2 are cleared all the same. That
the byte is unsigned, so that 0x80 to 0xFF are out of range, is the spec's decision D19 (log 19). -/
def Obligations.ShtrOutOfRangeStoresNothing : Prop :=
  ∀ (a1 : Byte) (s : State), 2 ≤ a1.toNat → exec (.shtr (.w2 a1)) s = .next { s with
    dev := { s.dev with
      board_status := s.dev.board_status &&& 0xFFFA
      last_response := 0xFFFF }
    reply := some (.ack 2) }

/-- SHTR with the wrong length (R143): malformed, whatever its argument bytes are. With the example of the rule. -/
def Obligations.ShtrOfThreeBytesIsMalformed : Prop :=
  (∀ a1 a2 : Byte, decode (.write [0x91, a1, a2]) = .ok (.shtr (.w3 a1 a2)) ∧
    ∀ s : State, exec (.shtr (.w3 a1 a2)) s = .next { s with
      dev := { s.dev with
        board_status := s.dev.board_status ||| 0x0004
        last_response := 0xFFFF }
      reply := some (.ack 3) }) ∧
  (deviceAfter [.write [0x91, 0x00, 0x00]] State.reset).map
    (fun d => (d.board_status, d.heater_controller_status, d.last_response)) = some (0x0004, 1, 0xFFFF)

/-! ## Writes that name no command -/

/-- UNKNOWN (R79, R99): every opcode outside the eleven, in a write of 2 or 3 bytes, sets bit 0 and latches the sentinel;
nothing else changes and the arguments are not examined. There are 245 such opcodes, the ones R79 lists. The log
event that R99 mentions is outside the model (log 16). -/
def Obligations.UnassignedOpcodesSetTheUnknownBit : Prop :=
  (∀ op : Byte, op ∉ ([0x01, 0x03, 0x04, 0x05, 0x10, 0x31, 0x32, 0x33, 0x80, 0x90, 0x91] : List Byte) →
    (∀ a1 : Byte, decode (.write [op, a1]) = .ok (.unknown op (.w2 a1)) ∧
      ∀ s : State, exec (.unknown op (.w2 a1)) s = .next { s with
        dev := { s.dev with
          board_status := s.dev.board_status ||| 0x0001
          last_response := 0xFFFF }
        reply := some (.ack 2) }) ∧
    (∀ a1 a2 : Byte, decode (.write [op, a1, a2]) = .ok (.unknown op (.w3 a1 a2)) ∧
      ∀ s : State, exec (.unknown op (.w3 a1 a2)) s = .next { s with
        dev := { s.dev with
          board_status := s.dev.board_status ||| 0x0001
          last_response := 0xFFFF }
        reply := some (.ack 3) })) ∧
  ((List.range 256).filter fun n => unassigned (BitVec.ofNat 8 n)).length = 245 ∧
  (∀ op : Byte, unassigned op = true ↔
    op ∉ ([0x01, 0x03, 0x04, 0x05, 0x10, 0x31, 0x32, 0x33, 0x80, 0x90, 0x91] : List Byte)) ∧
  (deviceAfter [.write [0x02, 0x00]] State.reset).map (fun d => (d.board_status, d.last_response)) =
    some (0x0001, 0xFFFF)

/-- BADLEN (R91): a write of any other length latches the sentinel and changes nothing else, no opcode is dispatched, and
the returned count is 2 whatever the length is, the empty write included. The log event that R91 mentions is outside the
model (log 16). -/
def Obligations.BadlenChangesOnlyTheLatch : Prop :=
  (∀ w : List Byte, w.length ≠ 2 → w.length ≠ 3 →
    decode (.write w) = .ok (.badlen w) ∧
    ∀ s : State, exec (.badlen w) s = .next { s with
      dev := { s.dev with last_response := 0xFFFF }
      reply := some (.ack 2) }) ∧
  (deviceAfter [.write [0x04]] State.reset).map (fun d => (d.last_response, d.board_status)) = some (0xFFFF, 0x0000) ∧
  replyAfter [.write [0x04]] State.reset = some (.ack 2)

/-! ## The read phase -/

/-- READ (R150): the response little-endian in bytes 0 and 1, the requested length as the returned count, no change of the
Device. The bytes at index 2 and above are free: the statement says that there are `k - 2` of them, not what they are. -/
def Obligations.ReadSerializesTheResponse : Prop :=
  (∀ (k : Nat) (s : State), 2 ≤ k →
    decode (.read k) = .ok (.read k) ∧
    ∃ (out0 out1 : Byte) (others : List Byte) (drawn : Nat),
      out0.toNat = s.dev.last_response.toNat % 256 ∧
      out1.toNat = s.dev.last_response.toNat / 256 ∧
      others.length = k - 2 ∧
      exec (.read k) s = .next { s with
        reply := some (.data (out0 :: out1 :: others) k)
        draws := drawn }) ∧
  replyAfter [.write [0x04, 0x00], .read 2] State.reset = some (.data [0x01, 0x10] 2)

/-- A READ of fewer than two bytes has no meaning and is refused, by the decoder, by the step and by the meaning (R154).
The refusal is the spec's decision D8 (log 5). -/
def Obligations.ShortReadIsRefused : Prop :=
  ∀ k : Nat, k < 2 →
    decode (.read k) = .error (.readBufferShort k) ∧
    (∀ s : State, exec (.read k) s = .refused (.readBufferShort k)) ∧
    (∀ (s : State) (rest : List Transaction), s.bus = .read k :: rest → step s = .refused (.readBufferShort k))

/-- Reads are repeatable (R153): any number of READs of any lengths leave the Device as it was, and each of them answers
the same two bytes. That READ changes nothing is the spec's decision D9 (log 24). -/
def Obligations.ReadsAreRepeatable : Prop :=
  ∀ (lengths : List Nat) (k : Nat) (s : State), (∀ n ∈ lengths, 2 ≤ n) → 2 ≤ k →
    deviceAfter (lengths.map .read) s = some s.dev ∧
    answerAfter (lengths.map .read ++ [.read k]) s = answerAfter [.read k] s

/-- The two-phase transaction, QUERY (R62, R84): whatever the write is, a READ after it answers the response which that
write latched, leaves the Device as the write left it, and puts together to that response. That READ changes nothing is the
spec's decision D9 (log 24). -/
def Obligations.QueryAnswersTheLatchedResponse : Prop :=
  ∀ (w : List Byte) (s : State), ∃ d : Device,
    deviceAfter [.write w] s = some d ∧
    deviceAfter [.write w, .read 2] s = some d ∧
    (replyAfter [.write w, .read 2] s).bind replyValue = some d.last_response

/-! ## Rules about the whole machine -/

/-- Bit 3 changes under a GTLM of three bytes only, and is cleared only by one whose code is defined (R29): no accessor,
no SHTR, no MRST, no UNKNOWN, no BADLEN and no READ changes it. -/
def Obligations.OnlyGtlmChangesTheTelemetryBit : Prop :=
  ∀ s t : State, step s = .next t →
    t.dev.board_status[3] ≠ s.dev.board_status[3] →
    ∃ (a1 a2 : Byte) (rest : List Transaction),
      s.bus = .write [0x10, a1, a2] :: rest ∧
      (t.dev.board_status[3] = false → ∃ code v : Word,
        code.toNat = 256 * a1.toNat + a2.toNat ∧ (code, v) ∈ Config.tlmRom.entries)

/-- Bits 0 and 2 are sticky, and are cleared together (R28, R30): when a step clears one of them, both are 0 after it, and
it ran a well-formed accessor, an SHTR of two bytes, or a GTLM. That an accessor of three bytes clears nothing is the spec's
decision D3 (log 8). -/
def Obligations.UnknownAndMalformedBitsAreClearedTogether : Prop :=
  ∀ s t : State, step s = .next t →
    (s.dev.board_status[0] = true ∧ t.dev.board_status[0] = false) ∨
      (s.dev.board_status[2] = true ∧ t.dev.board_status[2] = false) →
    t.dev.board_status[0] = false ∧ t.dev.board_status[2] = false ∧
    ∃ (w : List Byte) (rest : List Transaction), s.bus = .write w :: rest ∧
      ((∃ op ∈ accessorOpcodes, w = [op, 0x00]) ∨ (∃ a1, w = [0x91, a1]) ∨ (∃ a1, w = [0x10, a1]) ∨
        ∃ a1 a2, w = [0x10, a1, a2])

/-- Who writes what, the column 'written by' of R20, over all steps: `board_status` changes by a write of two or three bytes
only, through `ClearFaults()`, `SetFault(m)` and the clear of bit 3, in the combinations of R166 (R27 to R31); the heater
status by an SHTR in range only (R37), the counter by a 2-byte well-formed MRST only and by one (R35), the response by a
write only (R23), and the registers that no command writes keep their values (R24, R25, R34, R36). Decisions of the spec
that it rests on: an accessor of three bytes, MRST among them, counts and clears nothing (D3, log 8); the counter wraps
modulo 2^16 (D4, log 9); READ changes nothing (D9, log 24); MRST resets nothing (D13, log 23); the SHTR comparison is
unsigned (D19, log 19). -/
def Obligations.EachRegisterIsWrittenByItsCommandOnly : Prop :=
  ∀ s t : State, step s = .next t →
    (t.dev.board_status ≠ s.dev.board_status →
      (∃ w rest, s.bus = .write w :: rest ∧ (w.length = 2 ∨ w.length = 3)) ∧
        t.dev.board_status ∈
          [s.dev.board_status &&& 0xFFFA, s.dev.board_status &&& 0xFFF2, s.dev.board_status ||| 0x0001,
            s.dev.board_status ||| 0x0004, (s.dev.board_status &&& 0xFFFA) ||| 0x0008]) ∧
    (t.dev.heater_controller_status ≠ s.dev.heater_controller_status →
      ∃ (a1 : Byte) (rest : List Transaction), s.bus = .write [0x91, a1] :: rest ∧
        a1.toNat ≤ 1 ∧ t.dev.heater_controller_status.toNat = a1.toNat) ∧
    (t.dev.manual_resets ≠ s.dev.manual_resets →
      (∃ rest, s.bus = .write [0x80, 0x00] :: rest) ∧
        t.dev.manual_resets.toNat = (s.dev.manual_resets.toNat + 1) % 2 ^ 16) ∧
    (t.dev.last_response ≠ s.dev.last_response → ∃ w rest, s.bus = .write w :: rest) ∧
    t.dev.version = s.dev.version ∧ t.dev.checksum = s.dev.checksum ∧
    t.dev.brownout_resets = s.dev.brownout_resets ∧
    t.dev.auto_software_resets = s.dev.auto_software_resets ∧ t.dev.last_error = s.dev.last_error

/-- Each of the six error conditions is recorded as R161 lists it, and no faulting write has any other effect (R160): the
bit, the clear where there is one, and the sentinel. Row E2's 3-byte accessor is decision D3 (log 8), and row EH's
unsigned test is decision D19 (log 19). -/
def Obligations.EachErrorConditionIsRecordedAsListed : Prop :=
  ∀ (s : State) (w : List Byte) (rest : List Transaction) (e : ErrorCondition),
    s.bus = .write w :: rest → e.raisedBy Config.tlmRom w →
    step s = .next { s with
      dev := e.record s.dev
      bus := rest
      reply := some (.ack (if e = .invalidLength then 2 else w.length)) }

/-- A write raises at most one of the six conditions (R165), and one that raises none sets no bit of the status. That an
accessor of three bytes raises E2 is the spec's decision D3 (log 8), and the unsigned test of EH is D19 (log 19). -/
def Obligations.AWriteRaisesAtMostOneError : Prop :=
  ∀ w : List Byte,
    (∀ e e' : ErrorCondition, e.raisedBy Config.tlmRom w → e'.raisedBy Config.tlmRom w → e = e') ∧
    ((∀ e : ErrorCondition, ¬ e.raisedBy Config.tlmRom w) →
      ∀ s : State, ∃ d : Device, deviceAfter [.write w] s = some d ∧
        d.board_status ||| s.dev.board_status = s.dev.board_status)

/-- The sentinel convention (R163, R197): where a write to a legal Device raises no error condition and leaves 0xFFFF in
the latch all the same, it was a GMR of a counter at 0xFFFF or a GTLM of a channel whose reading is 0xFFFF. It rests on
decisions of the spec: an accessor of three bytes raises E2 (D3, log 8), the counter is 16 bits wide (D4, log 9), and the
test of EH is unsigned (D19, log 19). -/
def Obligations.SentinelWithoutAnErrorIsACountOrAReading : Prop :=
  ∀ (w : List Byte) (s : State) (d : Device),
    s.dev.Legal → (∀ e : ErrorCondition, ¬ e.raisedBy Config.tlmRom w) →
    deviceAfter [.write w] s = some d → d.last_response = 0xFFFF →
    (w = [0x33, 0x00] ∧ s.dev.manual_resets = 0xFFFF) ∨
    ∃ (a1 a2 : Byte) (code : Word), w = [0x10, a1, a2] ∧
      code.toNat = 256 * a1.toNat + a2.toNat ∧ (code, 0xFFFF) ∈ Config.tlmRom.entries

/-- The returned count (R94): the length of the write on every path where it is 2 or 3, and 2 otherwise. That a count is
an output and no state is the spec's decision D22 (log 3). -/
def Obligations.WriteReturnsItsLengthOrTwo : Prop :=
  ∀ (w : List Byte) (s : State),
    replyAfter [.write w] s = some (.ack (if w.length = 3 then 3 else 2))

/-- Repeating a write changes nothing more, on any Device, for every write but a well-formed MRST; that one counts each
time (R60, R201). It rests on two decisions of the spec: the first clause takes in the 3-byte MRST, which is malformed and
counts nothing (D3, log 8); the second adds 2 on 16 bits with wrap, on every state, the counts 0xFFFE and 0xFFFF among them
(D4, log 9; a claim meant to hold of the source's software would take a count below 0xFFFF before each MRST, R35). -/
def Obligations.RepeatingAWriteIsIdempotentUnlessMrst : Prop :=
  (∀ (w : List Byte) (s : State), w ≠ [0x80, 0x00] →
    deviceAfter [.write w, .write w] s = deviceAfter [.write w] s) ∧
  (∀ s : State, (deviceAfter [.write [0x80, 0x00], .write [0x80, 0x00]] s).map (·.manual_resets) =
    some (s.dev.manual_resets + 2))

/-- Every step counts one well-formed MRST if that is what it delivers, and none otherwise, from every state (R35, R117,
R119): an MRST always counts, and nothing else does, an idle step included. The modulus is the spec's decision D4 (log 9),
and that only the 2-byte MRST is well-formed is decision D3 (log 8). -/
def Obligations.EachStepCountsTheMrstItDelivers : Prop :=
  ∀ s t : State, step s = .next t →
    t.dev.manual_resets.toNat =
      (s.dev.manual_resets.toNat + (if s.bus.head? = some (.write [0x80, 0x00]) then 1 else 0)) % 2 ^ 16

/-- `manual_resets` is the number of well-formed MRSTs since reset, modulo 2^16 (R35, R117), over every sequence of
transactions that is not refused. The modulus is the spec's decision D4 (log 9), and that only the 2-byte MRST is
well-formed is decision D3 (log 8). The step lemma behind it, from every state, is `EachStepCountsTheMrstItDelivers`. -/
def Obligations.ManualResetsCountWellFormedMrst : Prop :=
  ∀ (ts : List Transaction) (d : Device), deviceAfter ts State.reset = some d →
    d.manual_resets.toNat = ts.count (.write [0x80, 0x00]) % 2 ^ 16

/-- The Device record is all the state there is (R20, R41): two states with equal Devices leave equal Devices and give
equal answers under every sequence of transactions, whatever else the two hold. -/
def Obligations.BehaviourDependsOnTheDeviceAlone : Prop :=
  ∀ (ts : List Transaction) (s t : State), s.dev = t.dev →
    deviceAfter ts s = deviceAfter ts t ∧ (ts ≠ [] → answerAfter ts s = answerAfter ts t)

/-- Instances are independent (R172): a step of one leaves every other as it was, and steps of two instances commute. That
a system is the product of its instances is the spec's decision D21 (log 17). -/
def Obligations.InstancesAreIndependent : Prop :=
  ∀ (n : Nat) (i j : Fin n) (sys a b : Vector State n), i ≠ j →
    stepInstance i sys = .next a → stepInstance j sys = .next b →
    a[j] = sys[j] ∧ ∃ c, stepInstance j a = .next c ∧ stepInstance i b = .next c
end

