-- ==== Sys2Proof/Laws/State.lean ====
section
/-! SUPPORT. The small lemmas of the state: one per field per register write, and the fields of `offer`. Later proofs cite
them and unfold no record update. -/

namespace Sys2Proof.Machine

section Device
variable (d : Device)

/-! ### `latch` -/

@[simp] theorem Device.latch_last_response (v : Word) : (d.latch v).last_response = v := rfl
@[simp] theorem Device.latch_board_status (v : Word) : (d.latch v).board_status = d.board_status := rfl
@[simp] theorem Device.latch_version (v : Word) : (d.latch v).version = d.version := rfl
@[simp] theorem Device.latch_checksum (v : Word) : (d.latch v).checksum = d.checksum := rfl
@[simp] theorem Device.latch_brownout_resets (v : Word) : (d.latch v).brownout_resets = d.brownout_resets := rfl
@[simp] theorem Device.latch_auto_software_resets (v : Word) : (d.latch v).auto_software_resets = d.auto_software_resets := rfl
@[simp] theorem Device.latch_manual_resets (v : Word) : (d.latch v).manual_resets = d.manual_resets := rfl
@[simp] theorem Device.latch_heater_controller_status (v : Word) : (d.latch v).heater_controller_status = d.heater_controller_status := rfl
@[simp] theorem Device.latch_last_error (v : Word) : (d.latch v).last_error = d.last_error := rfl

/-! ### `clearFaults` -/

@[simp] theorem Device.clearFaults_last_response : d.clearFaults.last_response = d.last_response := rfl
@[simp] theorem Device.clearFaults_board_status : d.clearFaults.board_status = clearBits maskClearFaults d.board_status := rfl
@[simp] theorem Device.clearFaults_version : d.clearFaults.version = d.version := rfl
@[simp] theorem Device.clearFaults_checksum : d.clearFaults.checksum = d.checksum := rfl
@[simp] theorem Device.clearFaults_brownout_resets : d.clearFaults.brownout_resets = d.brownout_resets := rfl
@[simp] theorem Device.clearFaults_auto_software_resets : d.clearFaults.auto_software_resets = d.auto_software_resets := rfl
@[simp] theorem Device.clearFaults_manual_resets : d.clearFaults.manual_resets = d.manual_resets := rfl
@[simp] theorem Device.clearFaults_heater_controller_status : d.clearFaults.heater_controller_status = d.heater_controller_status := rfl
@[simp] theorem Device.clearFaults_last_error : d.clearFaults.last_error = d.last_error := rfl

/-! ### `setFault` -/

@[simp] theorem Device.setFault_last_response (m : Word) : (d.setFault m).last_response = d.last_response := rfl
@[simp] theorem Device.setFault_board_status (m : Word) : (d.setFault m).board_status = setBits m d.board_status := rfl
@[simp] theorem Device.setFault_version (m : Word) : (d.setFault m).version = d.version := rfl
@[simp] theorem Device.setFault_checksum (m : Word) : (d.setFault m).checksum = d.checksum := rfl
@[simp] theorem Device.setFault_brownout_resets (m : Word) : (d.setFault m).brownout_resets = d.brownout_resets := rfl
@[simp] theorem Device.setFault_auto_software_resets (m : Word) : (d.setFault m).auto_software_resets = d.auto_software_resets := rfl
@[simp] theorem Device.setFault_manual_resets (m : Word) : (d.setFault m).manual_resets = d.manual_resets := rfl
@[simp] theorem Device.setFault_heater_controller_status (m : Word) : (d.setFault m).heater_controller_status = d.heater_controller_status := rfl
@[simp] theorem Device.setFault_last_error (m : Word) : (d.setFault m).last_error = d.last_error := rfl

/-! ### `clearTelemetry` -/

@[simp] theorem Device.clearTelemetry_last_response : d.clearTelemetry.last_response = d.last_response := rfl
@[simp] theorem Device.clearTelemetry_board_status : d.clearTelemetry.board_status = clearBits maskTelemetry d.board_status := rfl
@[simp] theorem Device.clearTelemetry_version : d.clearTelemetry.version = d.version := rfl
@[simp] theorem Device.clearTelemetry_checksum : d.clearTelemetry.checksum = d.checksum := rfl
@[simp] theorem Device.clearTelemetry_brownout_resets : d.clearTelemetry.brownout_resets = d.brownout_resets := rfl
@[simp] theorem Device.clearTelemetry_auto_software_resets : d.clearTelemetry.auto_software_resets = d.auto_software_resets := rfl
@[simp] theorem Device.clearTelemetry_manual_resets : d.clearTelemetry.manual_resets = d.manual_resets := rfl
@[simp] theorem Device.clearTelemetry_heater_controller_status : d.clearTelemetry.heater_controller_status = d.heater_controller_status := rfl
@[simp] theorem Device.clearTelemetry_last_error : d.clearTelemetry.last_error = d.last_error := rfl

/-! ### `countManualReset` -/

@[simp] theorem Device.countManualReset_last_response : d.countManualReset.last_response = d.last_response := rfl
@[simp] theorem Device.countManualReset_board_status : d.countManualReset.board_status = d.board_status := rfl
@[simp] theorem Device.countManualReset_version : d.countManualReset.version = d.version := rfl
@[simp] theorem Device.countManualReset_checksum : d.countManualReset.checksum = d.checksum := rfl
@[simp] theorem Device.countManualReset_brownout_resets : d.countManualReset.brownout_resets = d.brownout_resets := rfl
@[simp] theorem Device.countManualReset_auto_software_resets : d.countManualReset.auto_software_resets = d.auto_software_resets := rfl
@[simp] theorem Device.countManualReset_manual_resets : d.countManualReset.manual_resets = d.manual_resets + 1 := rfl
@[simp] theorem Device.countManualReset_heater_controller_status : d.countManualReset.heater_controller_status = d.heater_controller_status := rfl
@[simp] theorem Device.countManualReset_last_error : d.countManualReset.last_error = d.last_error := rfl

/-! ### `setHeater` -/

@[simp] theorem Device.setHeater_last_response (b : Bit) : (d.setHeater b).last_response = d.last_response := rfl
@[simp] theorem Device.setHeater_board_status (b : Bit) : (d.setHeater b).board_status = d.board_status := rfl
@[simp] theorem Device.setHeater_version (b : Bit) : (d.setHeater b).version = d.version := rfl
@[simp] theorem Device.setHeater_checksum (b : Bit) : (d.setHeater b).checksum = d.checksum := rfl
@[simp] theorem Device.setHeater_brownout_resets (b : Bit) : (d.setHeater b).brownout_resets = d.brownout_resets := rfl
@[simp] theorem Device.setHeater_auto_software_resets (b : Bit) : (d.setHeater b).auto_software_resets = d.auto_software_resets := rfl
@[simp] theorem Device.setHeater_manual_resets (b : Bit) : (d.setHeater b).manual_resets = d.manual_resets := rfl
@[simp] theorem Device.setHeater_heater_controller_status (b : Bit) : (d.setHeater b).heater_controller_status = b := rfl
@[simp] theorem Device.setHeater_last_error (b : Bit) : (d.setHeater b).last_error = d.last_error := rfl

/-! ### the composed writes -/

@[simp] theorem Device.answerError_eq_latch : d.answerError = d.latch sentinel := rfl
@[simp] theorem Device.recordFault_eq_latch (m : Word) : d.recordFault m = (d.setFault m).latch sentinel := rfl

end Device

section State
variable (s : State) (t : Transaction)

@[simp] theorem State.offer_dev : (s.offer t).dev = s.dev := rfl
@[simp] theorem State.offer_bus : (s.offer t).bus = t :: s.bus := rfl
@[simp] theorem State.offer_reply : (s.offer t).reply = s.reply := rfl
@[simp] theorem State.offer_draws : (s.offer t).draws = s.draws := rfl

end State

end Sys2Proof.Machine
end

