-- ==== Sys2Proof/Laws/Ops.lean ====
section
/-! SUPPORT. One lemma per shared operation: everything it can do. The meanings' proofs cite these. -/

namespace Sys2Proof.Machine

/-! ## The fault bits -/

/-- `ClearFaults()` as R95 also writes it. -/
theorem clearBits_faults (status : Word) : clearBits maskClearFaults status = status &&& 0xFFFA := rfl

theorem clearBits_telemetry (status : Word) : clearBits maskTelemetry status = status &&& 0xFFF7 := rfl

/-- A bit after an AND-clear. -/
theorem clearBits_getElem (m status : Word) (i : Nat) (h : i < 16) :
    (clearBits m status)[i] = (status[i] && !m[i]) := by
  simp [clearBits]

/-- A bit after an OR-set. -/
theorem setBits_getElem (m status : Word) (i : Nat) (h : i < 16) : (setBits m status)[i] = (status[i] || m[i]) := by
  simp [setBits]

/-- Setting a bit again changes nothing (R96). -/
theorem setBits_idem (m status : Word) : setBits m (setBits m status) = setBits m status := by
  simp [setBits, BitVec.or_assoc]

/-- Clearing a bit again changes nothing (R95). -/
theorem clearBits_idem (m status : Word) : clearBits m (clearBits m status) = clearBits m status := by
  simp [clearBits, BitVec.and_assoc]

section FaultBits
variable (b : Word)

/-! ### the three fault bits under each primitive (R95, R96) -/

@[simp] theorem clearFaults_bit0 : (clearBits maskClearFaults b)[0] = false := by
  rw [clearBits_getElem, show maskClearFaults[0] = true from rfl]; simp
@[simp] theorem clearFaults_bit2 : (clearBits maskClearFaults b)[2] = false := by
  rw [clearBits_getElem, show maskClearFaults[2] = true from rfl]; simp
@[simp] theorem clearFaults_bit3 : (clearBits maskClearFaults b)[3] = b[3] := by
  rw [clearBits_getElem, show maskClearFaults[3] = false from rfl]; simp
@[simp] theorem clearTelemetry_bit0 : (clearBits maskTelemetry b)[0] = b[0] := by
  rw [clearBits_getElem, show maskTelemetry[0] = false from rfl]; simp
@[simp] theorem clearTelemetry_bit2 : (clearBits maskTelemetry b)[2] = b[2] := by
  rw [clearBits_getElem, show maskTelemetry[2] = false from rfl]; simp
@[simp] theorem clearTelemetry_bit3 : (clearBits maskTelemetry b)[3] = false := by
  rw [clearBits_getElem, show maskTelemetry[3] = true from rfl]; simp
@[simp] theorem setUnknown_bit0 : (setBits maskUnknown b)[0] = true := by
  rw [setBits_getElem, show maskUnknown[0] = true from rfl]; simp
@[simp] theorem setUnknown_bit2 : (setBits maskUnknown b)[2] = b[2] := by
  rw [setBits_getElem, show maskUnknown[2] = false from rfl]; simp
@[simp] theorem setUnknown_bit3 : (setBits maskUnknown b)[3] = b[3] := by
  rw [setBits_getElem, show maskUnknown[3] = false from rfl]; simp
@[simp] theorem setMalformed_bit0 : (setBits maskMalformed b)[0] = b[0] := by
  rw [setBits_getElem, show maskMalformed[0] = false from rfl]; simp
@[simp] theorem setMalformed_bit2 : (setBits maskMalformed b)[2] = true := by
  rw [setBits_getElem, show maskMalformed[2] = true from rfl]; simp
@[simp] theorem setMalformed_bit3 : (setBits maskMalformed b)[3] = b[3] := by
  rw [setBits_getElem, show maskMalformed[3] = false from rfl]; simp
@[simp] theorem setTelemetry_bit0 : (setBits maskTelemetry b)[0] = b[0] := by
  rw [setBits_getElem, show maskTelemetry[0] = false from rfl]; simp
@[simp] theorem setTelemetry_bit2 : (setBits maskTelemetry b)[2] = b[2] := by
  rw [setBits_getElem, show maskTelemetry[2] = false from rfl]; simp
@[simp] theorem setTelemetry_bit3 : (setBits maskTelemetry b)[3] = true := by
  rw [setBits_getElem, show maskTelemetry[3] = true from rfl]; simp

end FaultBits

/-! ## Operands -/

theorem channelCode_toNat (a1 a2 : Byte) : (channelCode a1 a2).toNat = 256 * a1.toNat + a2.toNat := by
  have h : (channelCode a1 a2).toNat = a1.toNat <<< 8 ||| a2.toNat := BitVec.toNat_append a1 a2
  have h2 : a2.toNat < 2 ^ 8 := a2.isLt
  rw [h, ← Nat.shiftLeft_add_eq_or_of_lt h2, Nat.shiftLeft_eq]
  omega

theorem responseLow_toNat (r : Word) : (responseLow r).toNat = r.toNat % 256 := by
  simp [responseLow, BitVec.extractLsb'_toNat]

theorem responseHigh_toNat (r : Word) : (responseHigh r).toNat = r.toNat / 256 := by
  have := r.isLt
  simp only [responseHigh, BitVec.extractLsb'_toNat, Nat.shiftRight_eq_div_pow]
  omega

/-- The two bytes of a response, put together again, are the response. -/
theorem responseHigh_append_responseLow (r : Word) : responseHigh r ++ responseLow r = r := by
  apply BitVec.eq_of_toNat_eq
  have h := channelCode_toNat (responseHigh r) (responseLow r)
  rw [responseHigh_toNat, responseLow_toNat] at h
  have : (responseHigh r ++ responseLow r).toNat = (channelCode (responseHigh r) (responseLow r)).toNat := rfl
  rw [this, h]
  omega

/-- The shape check passes on one form only. -/
theorem accessorShape_iff (args : Args) : accessorShape args = true ↔ args = .w2 0x00 := by
  cases args <;> simp [accessorShape, accLen3Malformed]

theorem heaterInRange_iff (a1 : Byte) : heaterInRange a1 = true ↔ a1.toNat ≤ 1 := by
  simp [heaterInRange, BitVec.le_def]

/-! ## The telemetry lookup -/

/-- A code with a reading is found, and its reading is the one answered: the codes are distinct. -/
theorem romLookup_of_mem {rom : TlmRom} {code v : Word} (h : (code, v) ∈ rom.entries) :
    romLookup rom code = (v, false) := by
  unfold romLookup
  cases hf : rom.entries.find? fun e => e.1 == code with
  | none => simpa using List.find?_eq_none.mp hf _ h
  | some e =>
    have hc : e.1 = code := by simpa using List.find?_some hf
    have hv := List.inj_on_of_nodup_map rom.distinct (List.mem_of_find?_eq_some hf) h hc
    simp [hv]

/-- A code without a reading answers the sentinel and the fault. -/
theorem romLookup_of_forall_notMem {rom : TlmRom} {code : Word} (h : ∀ v, (code, v) ∉ rom.entries) :
    romLookup rom code = (sentinel, true) := by
  have hf : rom.entries.find? (fun e => e.1 == code) = none := by
    rw [List.find?_eq_none]
    intro e he hc
    have : e.1 = code := by simpa using hc
    exact h e.2 (this ▸ he)
  simp only [romLookup, hf]

/-! ## The ends of a transaction -/

/-- All that the end of a write can do. -/
theorem completeWrite_next {n : Nat} {d : Device} {s t : State} (h : completeWrite n d s = .next t) :
    t.dev = d ∧ t.reply = some (.ack n) ∧ t.bus = s.bus ∧ t.draws = s.draws := by
  cases h
  exact ⟨rfl, rfl, rfl, rfl⟩

/-- All that the end of a read can do. -/
theorem completeRead_next {k : Nat} {s t : State} (h : completeRead k s = .next t) :
    t.dev = s.dev ∧ t.reply = some (.data (readBytes s.dev.last_response k s.draws) k) ∧ t.bus = s.bus ∧
      t.draws = s.draws + (k - 2) := by
  cases h
  exact ⟨rfl, rfl, rfl, rfl⟩

theorem readBytes_length (r : Word) {k : Nat} (hk : 2 ≤ k) (drawn : Nat) : (readBytes r k drawn).length = k := by
  simp only [readBytes, List.length_cons, List.length_map, List.length_range]
  omega

/-! ## The shared meanings -/

/-- A simple accessor on its well-formed form. -/
theorem simpleAccessor_ok (effect : Device → Device) (value : Device → Word) (s : State) :
    simpleAccessor (.w2 0x00) effect value s =
      completeWrite 2 ((effect s.dev.clearFaults).latch (value (effect s.dev.clearFaults))) s := rfl

/-- A simple accessor on every other form. -/
theorem simpleAccessor_malformed {args : Args} (h : args ≠ .w2 0x00) (effect : Device → Device) (value : Device → Word)
    (s : State) : simpleAccessor args effect value s = malformed args s := by
  have hs : accessorShape args = false := by
    rw [← Bool.not_eq_true, accessorShape_iff]
    exact h
  simp [simpleAccessor, hs]

/-- A READ runs from two bytes on. -/
theorem execRead_of_le {k : Nat} (hk : 2 ≤ k) (s : State) : execRead k s = completeRead k s := by
  simp only [execRead, if_neg (Nat.not_lt.mpr hk)]

end Sys2Proof.Machine
end

