-- ==== Sys2Proof/Laws/Config.lean ====
section
/-! SUPPORT. What holds of the OPEN table whatever its contents are: some channel is defined and some is not. -/

namespace Sys2Proof.Machine

/-- Every 16-bit code is the channel code of two bytes. -/
theorem channelCode_response (code : Word) : channelCode (responseHigh code) (responseLow code) = code :=
  responseHigh_append_responseLow code

/-- Some channel is defined. -/
theorem exists_defined_channel : ∃ (a1 a2 : Byte) (v : Word), (channelCode a1 a2, v) ∈ Config.tlmRom.entries := by
  refine ⟨responseHigh (Config.channelOrder 0), responseLow (Config.channelOrder 0), Config.channelValue 0, ?_⟩
  rw [channelCode_response]
  exact List.mem_ofFn.mpr ⟨0, rfl⟩

/-- Some channel is undefined: there are more codes than the sixteen of the table. -/
theorem exists_undefined_channel : ∃ a1 a2 : Byte, ∀ v, (channelCode a1 a2, v) ∉ Config.tlmRom.entries := by
  refine ⟨responseHigh (Config.channelOrder 16), responseLow (Config.channelOrder 16), fun v hv => ?_⟩
  rw [channelCode_response] at hv
  simp only [Config.tlmRom, List.mem_ofFn, Prod.mk.injEq] at hv
  obtain ⟨i, hi, -⟩ := hv
  have h := congrArg BitVec.toNat (Config.channelOrder.injective hi)
  have h16 : (16 : Word).toNat = 16 := rfl
  have hlt := i.isLt
  rw [BitVec.toNat_ofNat, h16] at h
  omega

end Sys2Proof.Machine
end

