-- ==== Sys2Proof/Laws/Decode.lean ====
section
/-! SUPPORT. The spec lemmas of the decoder: the opcode table, the length of a write, the two formats. -/

namespace Sys2Proof

/-- The keys of the opcode table are pairwise distinct: no opcode names two commands. -/
theorem opcodeTable_keys_distinct : (opcodeTable.map Prod.fst).Nodup := by decide

/-- The table's keys and the unassigned opcodes of R79 are each other's complement. -/
theorem unassigned_eq_lookupOpcode_isNone (op : Byte) : unassigned op = (lookupOpcode op).isNone := by
  have h : ∀ n : Fin 256, unassigned (BitVec.ofFin n) = (lookupOpcode (BitVec.ofFin n)).isNone := by
    decide +kernel
  exact h op.toFin

/-- An unassigned opcode decodes to UNKNOWN. -/
theorem decodeCommand_of_unassigned {op : Byte} (h : unassigned op = true) (args : Args) :
    decodeCommand op args = .unknown op args := by
  rw [unassigned_eq_lookupOpcode_isNone, Option.isNone_iff_eq_none] at h
  simp only [decodeCommand, h]

/-- An assigned opcode is one of the eleven, and decodes to its command. -/
theorem decodeCommand_of_assigned {op : Byte} (h : unassigned op = false) (args : Args) :
    ∃ row ∈ opcodeTable, op = row.1 ∧ decodeCommand op args = row.2 args := by
  rw [unassigned_eq_lookupOpcode_isNone] at h
  unfold decodeCommand
  unfold lookupOpcode at h ⊢
  cases hf : opcodeTable.find? fun row => row.1 == op with
  | none => simp [hf] at h
  | some row =>
    have hk : row.1 = op := by simpa using List.find?_some hf
    exact ⟨row, List.mem_of_find?_eq_some hf, hk.symm, by simp⟩

/-- A write of the opcode and its arguments decodes by its opcode, in both formats. -/
theorem decodeWrite_frame (op : Byte) (args : Args) : decodeWrite (op :: args.bytes) = decodeCommand op args := by
  cases args <;> rfl

/-- A write of another length is BADLEN. -/
theorem decodeWrite_of_length {w : List Byte} (h2 : w.length ≠ 2) (h3 : w.length ≠ 3) : decodeWrite w = .badlen w := by
  match w with
  | [] | [_] => rfl
  | [_, _] => simp at h2
  | [_, _, _] => simp at h3
  | _ :: _ :: _ :: _ :: _ => rfl

/-- A write of 2 or 3 bytes is an opcode and its arguments. -/
theorem eq_frame_of_length {w : List Byte} (h : w.length = 2 ∨ w.length = 3) : ∃ op args, w = op :: Args.bytes args := by
  match w with
  | [op, a1] => exact ⟨op, .w2 a1, rfl⟩
  | [op, a1, a2] => exact ⟨op, .w3 a1 a2, rfl⟩
  | [] | [_] => simp at h
  | _ :: _ :: _ :: _ :: _ => simp at h

end Sys2Proof
end

