-- ==== Sys2Proof/Laws/Step.lean ====
section
/-! SUPPORT. What an instruction and a step can do, said once. -/

namespace Sys2Proof.Machine

/-- Every instruction but a READ ends a write: its returned count depends on nothing but the instruction, the Device it
leaves on nothing but the Device before. -/
theorem exec_eq_completeWrite (i : Instr) (hi : ∀ k, i ≠ .read k) :
    ∃ (n : Nat) (f : Device → Device), ∀ s, exec i s = completeWrite n (f s.dev) s := by
  have accessor : ∀ args (effect : Device → Device) (value : Device → Word),
      ∃ (n : Nat) (f : Device → Device), ∀ s, simpleAccessor args effect value s = completeWrite n (f s.dev) s := by
    intro args effect value
    by_cases ha : args = .w2 0x00
    · subst ha
      exact ⟨2, fun d => (effect d.clearFaults).latch (value (effect d.clearFaults)), fun s => rfl⟩
    · exact ⟨argsLength args, fun d => d.recordFault maskMalformed, fun s => simpleAccessor_malformed ha effect value s⟩
  cases i with
  | gbs args => exact accessor args id fun d => d.board_status
  | gle args => exact accessor args id fun d => d.last_error
  | gver args => exact accessor args id fun d => d.version
  | gcs args => exact accessor args id fun d => d.checksum
  | gbor args => exact accessor args id fun d => d.brownout_resets
  | gasr args => exact accessor args id fun d => d.auto_software_resets
  | gmr args => exact accessor args id fun d => d.manual_resets
  | mrst args => exact accessor args Device.countManualReset fun _ => 0x0000
  | ghtr args => exact accessor args id fun d => heaterWord d.heater_controller_status
  | gtlm args =>
    cases args with
    | w2 a1 => exact ⟨2, fun d => d.clearFaults.answerError, fun _ => rfl⟩
    | w3 a1 a2 => exact ⟨3, readChannel Config.tlmRom (channelCode a1 a2), fun _ => rfl⟩
  | shtr args =>
    cases args with
    | w2 a1 => exact ⟨2, requestHeater a1, fun _ => rfl⟩
    | w3 a1 a2 => exact ⟨3, fun d => d.recordFault maskMalformed, fun _ => rfl⟩
  | unknown op args => exact ⟨argsLength args, fun d => d.recordFault maskUnknown, fun _ => rfl⟩
  | badlen w => exact ⟨2, fun d => d.answerError, fun _ => rfl⟩
  | read k => exact absurd rfl (hi k)

/-- The decoder reads no READ from a write. -/
theorem decodeWrite_ne_read (w : List Byte) (k : Nat) : decodeWrite w ≠ .read k := by
  have table : ∀ row ∈ opcodeTable, ∀ args, row.2 args ≠ .read k := by
    simp [opcodeTable]
  have command : ∀ op args, decodeCommand op args ≠ .read k := by
    intro op args
    cases h : unassigned op with
    | true => simp [decodeCommand_of_unassigned h]
    | false =>
      obtain ⟨row, hr, -, he⟩ := decodeCommand_of_assigned h args
      exact he ▸ table row hr args
  unfold decodeWrite
  split
  · exact command _ _
  · exact command _ _
  · exact nofun

/-- A step on a transaction that is offered: its instruction runs in the state it was offered to. -/
theorem step_offer (s : State) (t : Transaction) :
    step (s.offer t) = match decode t with
      | .ok i => exec i s
      | .error reason => refuseTransaction reason := rfl

/-- A step is idle, or runs a write, or a read. -/
theorem step_cases {s t : State} (h : step s = .next t) :
    (s.bus = [] ∧ t = s) ∨
    (∃ w rest, s.bus = .write w :: rest ∧ exec (decodeWrite w) { s with bus := rest } = .next t) ∨
    (∃ k rest, s.bus = .read k :: rest ∧ 2 ≤ k ∧ completeRead k { s with bus := rest } = .next t) := by
  match hb : s.bus with
  | [] =>
    simp only [step, deliver, hb, idle] at h
    cases h
    exact .inl ⟨rfl, rfl⟩
  | .write w :: rest =>
    simp only [step, deliver, hb, decode] at h
    exact .inr (.inl ⟨w, rest, rfl, h⟩)
  | .read k :: rest =>
    by_cases hk : k < 2
    · simp only [step, deliver, hb, decode, if_pos hk, refuseTransaction] at h
      cases h
    · simp only [step, deliver, hb, decode, if_neg hk, exec] at h
      have hk' : 2 ≤ k := Nat.le_of_not_lt hk
      exact .inr (.inr ⟨k, rest, rfl, hk', execRead_of_le hk' _ ▸ h⟩)

end Sys2Proof.Machine
end

