-- ==== Sys2Proof/Laws/Paths.lean ====
section
/-! SUPPORT. All that a write can do, said once: the rows of the effect table R104. Whole-machine rules follow from a case
analysis of `WritePath`, and unfold no meaning. -/

namespace Sys2Proof.Machine

/-- The accessors other than MRST, and the response of each (R92, R104). -/
def accessorResponses (d : Device) : List (Byte × Word) :=
  [(0x01, d.clearFaults.board_status), (0x03, d.last_error), (0x04, d.version), (0x05, d.checksum),
   (0x31, d.brownout_resets), (0x32, d.auto_software_resets), (0x33, d.manual_resets),
   (0x90, heaterWord d.heater_controller_status)]

/-- `WritePath w d n d'`: the write `w` takes the Device `d` to `d'` with returned count `n`. One constructor for each row
of R104. -/
inductive WritePath : List Byte → Device → Nat → Device → Prop where
  | badlen {w d} (h2 : w.length ≠ 2) (h3 : w.length ≠ 3) : WritePath w d 2 d.answerError
  | unknown {op d} (args : Args) (h : unassigned op = true) :
      WritePath (op :: args.bytes) d (argsLength args) (d.recordFault maskUnknown)
  | malformed {op d args} (h : op ∈ accessorOpcodes) (ha : args ≠ .w2 0x00) :
      WritePath (op :: Args.bytes args) d (argsLength args) (d.recordFault maskMalformed)
  | accessor {op v d} (h : (op, v) ∈ accessorResponses d) : WritePath [op, 0x00] d 2 (d.clearFaults.latch v)
  | manualReset {d} : WritePath [0x80, 0x00] d 2 (d.clearFaults.countManualReset.latch 0x0000)
  | telemetryLength {d} (a1 : Byte) : WritePath [0x10, a1] d 2 d.clearFaults.answerError
  | channel {d v} (a1 a2 : Byte) (h : (channelCode a1 a2, v) ∈ Config.tlmRom.entries) :
      WritePath [0x10, a1, a2] d 3 (d.clearFaults.clearTelemetry.latch v)
  | noChannel {d} (a1 a2 : Byte) (h : ∀ v, (channelCode a1 a2, v) ∉ Config.tlmRom.entries) :
      WritePath [0x10, a1, a2] d 3 (d.clearFaults.recordFault maskTelemetry)
  | heater {d} (a1 : Byte) (h : a1.toNat ≤ 1) :
      WritePath [0x91, a1] d 2 ((d.clearFaults.setHeater (heaterBit a1)).latch 0x0000)
  | heaterRange {d} (a1 : Byte) (h : 2 ≤ a1.toNat) : WritePath [0x91, a1] d 2 d.clearFaults.answerError
  | heaterLength {d} (a1 a2 : Byte) : WritePath [0x91, a1, a2] d 3 (d.recordFault maskMalformed)

/-- A simple accessor takes its success row or the malformed one. -/
theorem simpleAccessor_path {op : Byte} (hop : op ∈ accessorOpcodes) (args : Args) {effect : Device → Device}
    {value : Device → Word} (s : State)
    (hok : WritePath [op, 0x00] s.dev 2 ((effect s.dev.clearFaults).latch (value (effect s.dev.clearFaults)))) :
    ∃ n d, WritePath (op :: args.bytes) s.dev n d ∧ simpleAccessor args effect value s = completeWrite n d s := by
  by_cases ha : args = .w2 0x00
  · subst ha
    exact ⟨_, _, hok, simpleAccessor_ok effect value s⟩
  · exact ⟨_, _, .malformed hop ha, simpleAccessor_malformed ha effect value s⟩

/-- GTLM takes one of its three rows. -/
theorem getTelemetry_path (args : Args) (s : State) :
    ∃ n d, WritePath (0x10 :: args.bytes) s.dev n d ∧ execGtlm args s = completeWrite n d s := by
  cases args with
  | w2 a1 => exact ⟨_, _, .telemetryLength a1, rfl⟩
  | w3 a1 a2 =>
    by_cases h : ∃ v, (channelCode a1 a2, v) ∈ Config.tlmRom.entries
    · obtain ⟨v, hv⟩ := h
      refine ⟨_, _, .channel a1 a2 hv, ?_⟩
      simp [execGtlm, getTelemetry, readChannel, romLookup_of_mem hv]
    · have hn : ∀ v, (channelCode a1 a2, v) ∉ Config.tlmRom.entries := fun v hv => h ⟨v, hv⟩
      refine ⟨_, _, .noChannel a1 a2 hn, ?_⟩
      simp [execGtlm, getTelemetry, readChannel, romLookup_of_forall_notMem hn]

/-- SHTR takes one of its three rows. -/
theorem execShtr_path (args : Args) (s : State) :
    ∃ n d, WritePath (0x91 :: args.bytes) s.dev n d ∧ execShtr args s = completeWrite n d s := by
  cases args with
  | w2 a1 =>
    by_cases h : a1.toNat ≤ 1
    · refine ⟨_, _, .heater a1 h, ?_⟩
      simp [execShtr, requestHeater, (heaterInRange_iff a1).mpr h]
    · have hr : heaterInRange a1 = false := Bool.eq_false_iff.mpr (mt (heaterInRange_iff a1).mp h)
      refine ⟨_, _, .heaterRange a1 (by omega), ?_⟩
      simp [execShtr, requestHeater, hr]
  | w3 a1 a2 => exact ⟨_, _, .heaterLength a1 a2, rfl⟩

/-- Every write takes a row of R104 (R92, R103). -/
theorem exec_write_path (w : List Byte) (s : State) :
    ∃ n d, WritePath w s.dev n d ∧ exec (decodeWrite w) s = completeWrite n d s := by
  by_cases hw : w.length = 2 ∨ w.length = 3
  · obtain ⟨op, args, rfl⟩ := eq_frame_of_length hw
    rw [decodeWrite_frame]
    cases hu : unassigned op with
    | true =>
      rw [decodeCommand_of_unassigned hu]
      exact ⟨_, _, .unknown args hu, rfl⟩
    | false =>
      obtain ⟨row, hr, rfl, he⟩ := decodeCommand_of_assigned hu args
      rw [he]
      simp only [opcodeTable, List.mem_cons, List.not_mem_nil, or_false] at hr
      rcases hr with rfl | rfl | rfl | rfl | rfl | rfl | rfl | rfl | rfl | rfl | rfl
      · exact simpleAccessor_path (op := 0x01) (by decide) args s (.accessor (by simp [accessorResponses]))
      · exact simpleAccessor_path (op := 0x03) (by decide) args s (.accessor (by simp [accessorResponses]))
      · exact simpleAccessor_path (op := 0x04) (by decide) args s (.accessor (by simp [accessorResponses]))
      · exact simpleAccessor_path (op := 0x05) (by decide) args s (.accessor (by simp [accessorResponses]))
      · exact getTelemetry_path args s
      · exact simpleAccessor_path (op := 0x31) (by decide) args s (.accessor (by simp [accessorResponses]))
      · exact simpleAccessor_path (op := 0x32) (by decide) args s (.accessor (by simp [accessorResponses]))
      · exact simpleAccessor_path (op := 0x33) (by decide) args s (.accessor (by simp [accessorResponses]))
      · exact simpleAccessor_path (op := 0x80) (effect := Device.countManualReset) (value := fun _ => 0x0000)
          (by decide) args s .manualReset
      · exact simpleAccessor_path (op := 0x90) (effect := id) (value := fun d => heaterWord d.heater_controller_status)
          (by decide) args s (.accessor (by simp [accessorResponses]))
      · exact execShtr_path args s
  · have h2 : w.length ≠ 2 := fun h => hw (.inl h)
    have h3 : w.length ≠ 3 := fun h => hw (.inr h)
    rw [decodeWrite_of_length h2 h3]
    exact ⟨_, _, .badlen h2 h3, rfl⟩

/-- All that a step can do to the Device: nothing, or what a row of R104 does. -/
theorem step_dev_cases {s t : State} (h : step s = .next t) :
    (t.dev = s.dev ∧ ∀ w rest, s.bus ≠ .write w :: rest) ∨
    ∃ w rest n d, s.bus = .write w :: rest ∧ WritePath w s.dev n d ∧ t.dev = d ∧ t.reply = some (.ack n) := by
  obtain ⟨hb, rfl⟩ | ⟨w, rest, hb, he⟩ | ⟨k, rest, hb, -, he⟩ := step_cases h
  · exact .inl ⟨rfl, by simp [hb]⟩
  · obtain ⟨n, d, hp, hc⟩ := exec_write_path w { s with bus := rest }
    obtain ⟨hd, hr, -⟩ := completeWrite_next (hc.symm.trans he)
    exact .inr ⟨w, rest, n, d, hb, hp, hd, hr⟩
  · exact .inl ⟨(completeRead_next he).1, by simp [hb]⟩

end Sys2Proof.Machine
end

