-- ==== Sys2Proof/Laws/PerInstr.lean ====
section
/-! SUPPORT. Statements about every instruction as syntax, one lemma per constructor. -/

/-- What the encoder writes for a well-formed instruction, the decoder reads back. -/
def Sys2Proof.Laws.RoundTrip.Statement (i : Sys2Proof.Instr) : Prop :=
  i.wellFormed = true → Sys2Proof.decode (Sys2Proof.encode i) = .ok i

namespace Sys2Proof.Laws.RoundTrip

theorem gbs (args : Args) : Statement (.gbs args) := fun _ => congrArg Except.ok (decodeWrite_frame Opcode.gbs args)
theorem gle (args : Args) : Statement (.gle args) := fun _ => congrArg Except.ok (decodeWrite_frame Opcode.gle args)
theorem gver (args : Args) : Statement (.gver args) := fun _ => congrArg Except.ok (decodeWrite_frame Opcode.gver args)
theorem gcs (args : Args) : Statement (.gcs args) := fun _ => congrArg Except.ok (decodeWrite_frame Opcode.gcs args)
theorem gtlm (args : Args) : Statement (.gtlm args) := fun _ => congrArg Except.ok (decodeWrite_frame Opcode.gtlm args)
theorem gbor (args : Args) : Statement (.gbor args) := fun _ => congrArg Except.ok (decodeWrite_frame Opcode.gbor args)
theorem gasr (args : Args) : Statement (.gasr args) := fun _ => congrArg Except.ok (decodeWrite_frame Opcode.gasr args)
theorem gmr (args : Args) : Statement (.gmr args) := fun _ => congrArg Except.ok (decodeWrite_frame Opcode.gmr args)
theorem mrst (args : Args) : Statement (.mrst args) := fun _ => congrArg Except.ok (decodeWrite_frame Opcode.mrst args)
theorem ghtr (args : Args) : Statement (.ghtr args) := fun _ => congrArg Except.ok (decodeWrite_frame Opcode.ghtr args)
theorem shtr (args : Args) : Statement (.shtr args) := fun _ => congrArg Except.ok (decodeWrite_frame Opcode.shtr args)

theorem unknown (op : Byte) (args : Args) : Statement (.unknown op args) := fun h => by
  simp only [encode, decode, decodeWrite_frame, decodeCommand_of_unassigned h]

theorem badlen (w : List Byte) : Statement (.badlen w) := fun h => by
  obtain ⟨h2, h3⟩ : w.length ≠ 2 ∧ w.length ≠ 3 := by simpa [Instr.wellFormed] using h
  simp only [encode, decode, decodeWrite_of_length h2 h3]

theorem read (k : Nat) : Statement (.read k) := fun h => by
  have hk : ¬ k < 2 := Nat.not_lt.mpr (of_decide_eq_true h)
  simp only [encode, decode, if_neg hk]

end Sys2Proof.Laws.RoundTrip
end

