-- ==== Sys2Proof/Laws/Runs.lean ====
section
/-! SUPPORT. Sequences of transactions: what each kind of transaction contributes to `after`, said once. -/

namespace Sys2Proof.Machine

@[simp] theorem after_nil (s : State) : after [] s = some s := rfl

/-- A write in a sequence takes its row of R104. -/
theorem after_write (w : List Byte) (ts : List Transaction) (s : State) :
    ∃ n d, WritePath w s.dev n d ∧
      after (.write w :: ts) s = after ts { s with dev := d, reply := some (.ack n) } := by
  obtain ⟨n, d, hp, hc⟩ := exec_write_path w s
  refine ⟨n, d, hp, ?_⟩
  have h : step (s.offer (.write w)) = completeWrite n d s := hc
  simp only [after, h, completeWrite]

/-- A READ of at least two bytes in a sequence. -/
theorem after_read {k : Nat} (hk : 2 ≤ k) (ts : List Transaction) (s : State) :
    after (.read k :: ts) s = after ts { s with
      reply := some (.data (readBytes s.dev.last_response k s.draws) k)
      draws := s.draws + (k - 2) } := by
  have h : step (s.offer (.read k)) = completeRead k s := by
    simp only [step_offer, decode, if_neg (Nat.not_lt.mpr hk), exec, execRead_of_le hk]
  simp only [after, h, completeRead]

/-- A READ of fewer bytes ends the sequence. -/
theorem after_read_short {k : Nat} (hk : k < 2) (ts : List Transaction) (s : State) : after (.read k :: ts) s = none := by
  have h : step (s.offer (.read k)) = refuseTransaction (.readBufferShort k) := by
    simp only [step_offer, decode, if_pos hk]
  simp only [after, h, refuseTransaction]

/-- A sequence run in two parts. -/
theorem after_append (ts us : List Transaction) (s : State) : after (ts ++ us) s = (after ts s).bind (after us) := by
  induction ts generalizing s with
  | nil => rfl
  | cons t ts ih =>
    rw [List.cons_append, after, after]
    split
    · exact ih _
    · rfl
    · rfl

/-- The first two bytes of a read's output, and its count, do not depend on the free bytes. -/
theorem determined_readBytes (r : Word) (k drawn : Nat) :
    Reply.determined (.data (readBytes r k drawn) k) = .data [responseLow r, responseHigh r] k := rfl

end Sys2Proof.Machine
end

