-- ==== Sys2Proof/Tests/Slice0.lean ====
section
/-! SUPPORT. The model's own tests: expected results are those of spec/95_test_vectors.md (S and V numbers) and of the
examples in the rules. After them, one witness for each statement that has hypotheses. -/

namespace Sys2Proof.Machine.Tests

/-! ## Well-formedness: each check refuses an ill-formed term (R79, R73, R154) -/

theorem test_unknown_of_an_assigned_opcode_is_ill_formed : (Instr.unknown 0x01 (.w2 0x00)).wellFormed = false := by decide
theorem test_unknown_at_the_ends_of_the_ranges :
    ([0x00, 0x02, 0x06, 0x0F, 0x11, 0x30, 0x34, 0x7F, 0x81, 0x8F, 0x92, 0xFF] : List Byte).all
      (fun op => (Instr.unknown op (.w2 0x00)).wellFormed) = true := by decide
theorem test_badlen_of_two_bytes_is_ill_formed : (Instr.badlen [0x04, 0x00]).wellFormed = false := by decide
theorem test_badlen_of_three_bytes_is_ill_formed : (Instr.badlen [0x10, 0x00, 0x00]).wellFormed = false := by decide
theorem test_read_of_one_byte_is_ill_formed : (Instr.read 1).wellFormed = false := by decide

/-! ## Decoding: words written out from the opcode map R76 and the ranges R79 -/

theorem test_decode_gbs : decode (.write [0x01, 0x00]) = .ok (.gbs (.w2 0x00)) := by decide
theorem test_decode_gle : decode (.write [0x03, 0xFF]) = .ok (.gle (.w2 0xFF)) := by decide
theorem test_decode_gver : decode (.write [0x04, 0x00]) = .ok (.gver (.w2 0x00)) := by decide
theorem test_decode_gcs : decode (.write [0x05, 0x00, 0x00]) = .ok (.gcs (.w3 0x00 0x00)) := by decide
theorem test_decode_gtlm : decode (.write [0x10, 0xA0, 0x03]) = .ok (.gtlm (.w3 0xA0 0x03)) := by decide
theorem test_decode_gtlm_two_bytes : decode (.write [0x10, 0xE2]) = .ok (.gtlm (.w2 0xE2)) := by decide
theorem test_decode_gbor : decode (.write [0x31, 0x00]) = .ok (.gbor (.w2 0x00)) := by decide
theorem test_decode_gasr : decode (.write [0x32, 0x00]) = .ok (.gasr (.w2 0x00)) := by decide
theorem test_decode_gmr : decode (.write [0x33, 0x00]) = .ok (.gmr (.w2 0x00)) := by decide
theorem test_decode_mrst : decode (.write [0x80, 0x00]) = .ok (.mrst (.w2 0x00)) := by decide
theorem test_decode_ghtr : decode (.write [0x90, 0x00]) = .ok (.ghtr (.w2 0x00)) := by decide
theorem test_decode_shtr : decode (.write [0x91, 0x01, 0x00]) = .ok (.shtr (.w3 0x01 0x00)) := by decide
theorem test_decode_unknown : decode (.write [0x92, 0x00, 0x00]) = .ok (.unknown 0x92 (.w3 0x00 0x00)) := by decide
theorem test_decode_badlen : decode (.write [0x04]) = .ok (.badlen [0x04]) := by decide
theorem test_decode_badlen_empty : decode (.write []) = .ok (.badlen []) := by decide
theorem test_decode_read : decode (.read 2) = .ok (.read 2) := by decide
theorem test_decode_read_short : decode (.read 1) = .error (.readBufferShort 1) := by decide

/-- The frame words of spec/opcode_table.json: `match` of GBS, GTLM and SHTR (R82). -/
theorem test_decodeTableWord : decodeTableWord 16 0x0100 = some (.gbs (.w2 0x00)) ∧
    decodeTableWord 24 0x100000 = some (.gtlm (.w3 0x00 0x00)) ∧
    decodeTableWord 16 0x9100 = some (.shtr (.w2 0x00)) := by decide

/-- `QUERY GVER` is `write([0x04,0x00]); read(2)` (R83, R84). -/
theorem test_encodeQuery : encodeQuery (.gver (.w2 0x00)) = [.write [0x04, 0x00], .read 2] := by decide

/-! ## One transaction at a time -/

/-- A state with the given `(lr, bs, mr, ht)`, as spec/95_test_vectors.md writes states. -/
def state (lr bs mr : Word) (ht : Bit) : State :=
  { State.reset with
    dev := { Device.reset with last_response := lr, board_status := bs, manual_resets := mr, heater_controller_status := ht } }

/-- `(lr, bs, mr, ht)` after one write, and its returned count. -/
def run (w : List Byte) (s : State) : Option (Word × Word × Word × Bit × Option Reply) :=
  (after [.write w] s).map fun t =>
    (t.dev.last_response, t.dev.board_status, t.dev.manual_resets, t.dev.heater_controller_status, t.reply)

theorem test_badlen_empty_V1 : run [] (state 0 0 0 1) = some (0xFFFF, 0x0000, 0, 1, some (.ack 2)) := by decide
theorem test_badlen_keeps_status_V5 : run [0x01] (state 0x1001 0x000D 7 0) = some (0xFFFF, 0x000D, 7, 0, some (.ack 2)) := by decide
theorem test_unknown_V13 : run [0x92, 0x00, 0x00] (state 0 0 0 1) = some (0xFFFF, 0x0001, 0, 1, some (.ack 3)) := by decide
theorem test_unknown_keeps_bits_V14 : run [0x06, 0x00] (state 0 0x000C 0 1) = some (0xFFFF, 0x000D, 0, 1, some (.ack 2)) := by decide
theorem test_gbs_V23 : run [0x01, 0x00] (state 0 0x000D 0 1) = some (0x0008, 0x0008, 0, 1, some (.ack 2)) := by decide
theorem test_gbs_malformed_V25 : run [0x01, 0x01] (state 0 0 0 1) = some (0xFFFF, 0x0004, 0, 1, some (.ack 2)) := by decide
theorem test_gle_V27 : run [0x03, 0x00] (state 0 0x000D 0 1) = some (0x0000, 0x0008, 0, 1, some (.ack 2)) := by decide
theorem test_gver_V28 : run [0x04, 0x00] (state 0 0 0 1) = some (0x1001, 0x0000, 0, 1, some (.ack 2)) := by decide
theorem test_gver_three_bytes_V42 : run [0x04, 0x00, 0x00] (state 0 0 0 1) = some (0xFFFF, 0x0004, 0, 1, some (.ack 3)) := by decide
theorem test_gcs_V29 : run [0x05, 0x00] (state 0 0 0 1) = some (0xBEEF, 0x0000, 0, 1, some (.ack 2)) := by decide
theorem test_gcs_malformed_V45 : run [0x05, 0x80] (state 0 0x0001 0 1) = some (0xFFFF, 0x0005, 0, 1, some (.ack 2)) := by decide
theorem test_gbor_V30 : run [0x31, 0x00] (state 0 0 0 1) = some (0x0000, 0x0000, 0, 1, some (.ack 2)) := by decide
theorem test_gasr_V31 : run [0x32, 0x00] (state 0 0 0 1) = some (0x0000, 0x0000, 0, 1, some (.ack 2)) := by decide
theorem test_gmr_V33 : run [0x33, 0x00] (state 0 0 0x0100 1) = some (0x0100, 0x0000, 0x0100, 1, some (.ack 2)) := by decide
theorem test_mrst_V38 : run [0x80, 0x00] (state 0 0x000D 41 0) = some (0x0000, 0x0008, 42, 0, some (.ack 2)) := by decide
theorem test_mrst_wraps_V39 : run [0x80, 0x00] (state 0 0 0xFFFF 1) = some (0x0000, 0x0000, 0x0000, 1, some (.ack 2)) := by decide
theorem test_ghtr_V35 : run [0x90, 0x00] (state 0 0 0 1) = some (0x0001, 0x0000, 0, 1, some (.ack 2)) := by decide
theorem test_ghtr_off_V36 : run [0x90, 0x00] (state 0 0 0 0) = some (0x0000, 0x0000, 0, 0, some (.ack 2)) := by decide
theorem test_shtr_V74 : run [0x91, 0xFF] (state 0 0 0 0) = some (0xFFFF, 0x0000, 0, 0, some (.ack 2)) := by decide
theorem test_shtr_three_bytes_V78 : run [0x91, 0x01, 0x00] (state 0 0x0001 0 0) = some (0xFFFF, 0x0005, 0, 0, some (.ack 3)) := by decide
theorem test_gtlm_two_bytes_V60 : run [0x10, 0xE2] (state 0 0x000D 0 1) = some (0xFFFF, 0x0008, 0, 1, some (.ack 2)) := by decide
theorem test_read_V81 : answerAfter [.read 2] (state 0xBEEF 0 0 1) = some (.data [0xEF, 0xBE] 2) := by decide
theorem test_read_count_V83 : answerAfter [.read 4] (state 0x1234 0 0 1) = some (.data [0x34, 0x12] 4) := by decide

/-! ## GTLM on the spec's own test table -/

/-- `TEST_ROM` of spec/95_test_vectors.md: the spec's invention, not the hardware's table. -/
def testRom : TlmRom where
  entries :=
    [(0xA000, 0x1000), (0xA001, 0x1001), (0xA002, 0x1002), (0xA003, 0x1003), (0xA004, 0x1004), (0xA005, 0x1005),
     (0xA006, 0x1006), (0xA007, 0x1007), (0xA008, 0x1008), (0xA009, 0x1009), (0xA00A, 0x100A), (0xA00B, 0x100B),
     (0xA00C, 0x100C), (0xA00D, 0x100D), (0xA00E, 0x0000), (0xA00F, 0xFFFF)]
  sixteen := rfl
  distinct := by decide

/-- `(lr, bs)` after GTLM of three bytes on `testRom`, from the status `bs`. -/
def readTest (a1 a2 : Byte) (bs : Word) : Word × Word :=
  let d := readChannel testRom (channelCode a1 a2) (state 0 bs 0 1).dev
  (d.last_response, d.board_status)

theorem test_gtlm_byte_order_V51_V54 : readTest 0xA0 0x03 0 = (0x1003, 0x0000) ∧ readTest 0x00 0xA0 0 = (0xFFFF, 0x0008) := by
  decide
theorem test_gtlm_status_V52_V55_V58 : readTest 0xA0 0x01 0x000D = (0x1001, 0x0000) ∧
    readTest 0x12 0x34 0x0005 = (0xFFFF, 0x0008) ∧ readTest 0xA0 0x0F 0x0008 = (0xFFFF, 0x0000) := by decide

/-! ## Witnesses: the hypotheses of each statement that has any are met together -/

theorem state_legal (lr mr : Word) (ht : Bit) : (state lr 0 mr ht).dev.Legal := ⟨BitVec.zero_and, rfl, rfl, rfl, rfl, rfl⟩

theorem witness_DecodeAfterEncodeGivesTheInstruction :
    (Instr.gtlm (.w2 0xE2)).wellFormed = true ∧ (Instr.unknown 0x00 (.w3 0x01 0x02)).wellFormed = true ∧
    (Instr.badlen []).wellFormed = true ∧ (Instr.badlen [0x10, 0, 0, 0]).wellFormed = true ∧ (Instr.read 2).wellFormed = true := by
  decide

theorem witness_EncodeAfterDecodeGivesTheTransaction : ∃ t i, decode t = .ok i := ⟨.read 2, .read 2, rfl⟩

theorem witness_StepRunsTheDecodedTransaction :
    ∃ (s : State) (t : Transaction) (rest : List Transaction) (i : Instr), s.bus = t :: rest ∧ decode t = .ok i :=
  ⟨State.reset.offer (.write [0x80, 0x00]), _, _, .mrst (.w2 0x00), rfl, rfl⟩

theorem witness_FrameWordRunsAsTheNextTransaction : ∃ i, decodeTableWord 16 0x8000 = some i := ⟨.mrst (.w2 0x00), rfl⟩

theorem witness_StepWithoutATransactionChangesNothing : State.reset.bus = [] := rfl

theorem witness_OnlyAShortReadIsRefused_both_cases :
    (∃ t, step (State.reset.offer (.read 2)) = .next t) ∧
    step (State.reset.offer (.read 1)) = .refused (.readBufferShort 1) := ⟨⟨_, rfl⟩, rfl⟩

theorem witness_WriteRunsTheNormativePseudocode :
    ∃ (s : State) (w : List Byte) (rest : List Transaction), s.dev.Legal ∧ s.bus = .write w :: rest :=
  ⟨State.reset.offer (.write [0x01, 0x00]), _, _, state_legal 0 0 1, rfl⟩

theorem witness_StepKeepsTheDeviceLegal : ∃ s t : State, s.dev.Legal ∧ step s = .next t ∧ t.dev ≠ s.dev :=
  ⟨State.reset.offer (.write [0x80, 0x00]), _, state_legal 0 0 1, rfl, by decide⟩

theorem witness_accessors_of_a_legal_Device : State.reset.dev.Legal := state_legal 0 0 1

theorem witness_GbsAnswersTheStatusAfterTheClear_both_values :
    (state 0 0x0005 0 1).dev.Legal ∧ (state 0 0x0005 0 1).dev.board_status &&& 0xFFFA = 0x0000 ∧
    (state 0 0x000D 0 1).dev.Legal ∧ (state 0 0x000D 0 1).dev.board_status &&& 0xFFFA = 0x0008 :=
  ⟨⟨rfl, rfl, rfl, rfl, rfl, rfl⟩, rfl, ⟨rfl, rfl, rfl, rfl, rfl, rfl⟩, rfl⟩

theorem witness_AccessorWithANonZeroArgumentIsMalformed : (0x01 : Byte) ≠ 0x00 ∧ (0xFF : Byte) ≠ 0x00 := by decide

theorem witness_RomLookupFindsExactlyThePairs :
    ((0xA000 : Word), (0x1000 : Word)) ∈ testRom.entries ∧ ∀ v : Word, ((0xA010 : Word), v) ∉ testRom.entries := by
  refine ⟨by decide, fun v h => ?_⟩
  simp [testRom] at h

theorem witness_GtlmOfADefinedChannel : ∃ (a1 a2 : Byte) (code v : Word),
    code.toNat = 256 * a1.toNat + a2.toNat ∧ (code, v) ∈ Config.tlmRom.entries :=
  let ⟨a1, a2, v, h⟩ := exists_defined_channel
  ⟨a1, a2, _, v, channelCode_toNat a1 a2, h⟩

theorem witness_GtlmOfAnUndefinedChannel : (∃ (a1 a2 : Byte) (code : Word),
    code.toNat = 256 * a1.toNat + a2.toNat ∧ ∀ v, (code, v) ∉ Config.tlmRom.entries) ∧
    (state 0 0x0005 0 1).dev.board_status = 0x0005 :=
  let ⟨a1, a2, h⟩ := exists_undefined_channel
  ⟨⟨a1, a2, _, channelCode_toNat a1 a2, h⟩, rfl⟩

theorem witness_GtlmOfTwoBytesClearsTheFaults :
    (state 0 0x0005 0 1).dev.board_status = 0x0005 ∧ (state 0 0x000D 0 1).dev.board_status = 0x000D := by decide

theorem witness_ShtrOutOfRangeStoresNothing : 2 ≤ (0x02 : Byte).toNat ∧ 2 ≤ (0xFF : Byte).toNat := by decide

theorem witness_UnassignedOpcodesSetTheUnknownBit :
    ∀ op ∈ ([0x00, 0x02, 0x92, 0xFF] : List Byte),
      op ∉ ([0x01, 0x03, 0x04, 0x05, 0x10, 0x31, 0x32, 0x33, 0x80, 0x90, 0x91] : List Byte) := by decide

theorem witness_BadlenChangesOnlyTheLatch :
    ([] : List Byte).length ≠ 2 ∧ ([] : List Byte).length ≠ 3 ∧
    ([0, 0, 0, 0] : List Byte).length ≠ 2 ∧ ([0, 0, 0, 0] : List Byte).length ≠ 3 := by decide

theorem witness_ReadSerializesTheResponse : 2 ≤ 2 ∧ 2 ≤ 5 := by decide

theorem witness_ShortReadIsRefused : 0 < 2 ∧ 1 < 2 ∧ (State.reset.offer (.read 1)).bus = .read 1 :: [] := by decide

theorem witness_ReadsAreRepeatable : (∀ n ∈ [2, 5], 2 ≤ n) ∧ 2 ≤ 3 := by decide

theorem witness_OnlyGtlmChangesTheTelemetryBit :
    (∃ s t : State, step s = .next t ∧ s.dev.board_status[3] = false ∧ t.dev.board_status[3] = true) ∧
    (∃ s t : State, step s = .next t ∧ s.dev.board_status[3] = true ∧ t.dev.board_status[3] = false) := by
  constructor
  · obtain ⟨a1, a2, h⟩ := exists_undefined_channel
    refine ⟨State.reset.offer (.write [0x10, a1, a2]), _, rfl, by simp [State.reset, Device.reset], ?_⟩
    simp [readChannel, romLookup_of_forall_notMem h]
  · obtain ⟨a1, a2, v, h⟩ := exists_defined_channel
    refine ⟨(state 0 0x0008 0 1).offer (.write [0x10, a1, a2]), _, rfl, by simp [state], ?_⟩
    simp [readChannel, romLookup_of_mem h]

theorem witness_UnknownAndMalformedBitsAreClearedTogether :
    (∃ t, step ((state 0 0x0001 0 1).offer (.write [0x04, 0x00])) = .next t ∧ t.dev.board_status[0] = false) ∧
    (∃ t, step ((state 0 0x0004 0 1).offer (.write [0x10, 0x00])) = .next t ∧ t.dev.board_status[2] = false) ∧
    (state 0 0x0001 0 1).dev.board_status[0] = true ∧ (state 0 0x0004 0 1).dev.board_status[2] = true :=
  ⟨⟨_, rfl, rfl⟩, ⟨_, rfl, rfl⟩, rfl, rfl⟩

/-- The clause about `board_status`: one transaction for each of the five values it may take. -/
theorem witness_EachRegisterIsWrittenByItsCommandOnly_status :
    (∃ t, step ((state 0 0x000D 0 1).offer (.write [0x04, 0x00])) = .next t ∧ t.dev.board_status = 0x0008) ∧
    (∃ t, step ((state 0 0 0 1).offer (.write [0x02, 0x00])) = .next t ∧ t.dev.board_status = 0x0001) ∧
    (∃ t, step ((state 0 0 0 1).offer (.write [0x04, 0x01])) = .next t ∧ t.dev.board_status = 0x0004) ∧
    (∃ a1 a2 t, step ((state 0 0x000D 0 1).offer (.write [0x10, a1, a2])) = .next t ∧ t.dev.board_status = 0x0000) ∧
    (∃ a1 a2 t, step ((state 0 0x0005 0 1).offer (.write [0x10, a1, a2])) = .next t ∧ t.dev.board_status = 0x0008) := by
  refine ⟨⟨_, rfl, rfl⟩, ⟨_, rfl, rfl⟩, ⟨_, rfl, rfl⟩, ?_, ?_⟩
  · obtain ⟨a1, a2, v, h⟩ := exists_defined_channel
    refine ⟨a1, a2, _, rfl, ?_⟩
    simp [readChannel, romLookup_of_mem h]
    rfl
  · obtain ⟨a1, a2, h⟩ := exists_undefined_channel
    refine ⟨a1, a2, _, rfl, ?_⟩
    simp [readChannel, romLookup_of_forall_notMem h]
    rfl

theorem witness_EachRegisterIsWrittenByItsCommandOnly :
    (∃ s t : State, step s = .next t ∧ t.dev.heater_controller_status ≠ s.dev.heater_controller_status) ∧
    (∃ s t : State, step s = .next t ∧ t.dev.manual_resets ≠ s.dev.manual_resets) ∧
    (∃ s t : State, step s = .next t ∧ t.dev.last_response ≠ s.dev.last_response) :=
  ⟨⟨State.reset.offer (.write [0x91, 0x00]), _, rfl, by decide⟩, ⟨State.reset.offer (.write [0x80, 0x00]), _, rfl, by decide⟩,
    ⟨State.reset.offer (.write [0x04, 0x00]), _, rfl, by decide⟩⟩

theorem witness_EachErrorConditionIsRecordedAsListed :
    ∀ e : ErrorCondition, ∃ (s : State) (w : List Byte) (rest : List Transaction),
      s.bus = .write w :: rest ∧ e.raisedBy Config.tlmRom w := by
  suffices ∀ e : ErrorCondition, ∃ w, e.raisedBy Config.tlmRom w from
    fun e => let ⟨w, h⟩ := this e; ⟨State.reset.offer (.write w), w, [], rfl, h⟩
  intro e
  cases e with
  | unknownCommand => exact ⟨[0x02, 0x00], 0x02, .w2 0x00, rfl, rfl⟩
  | malformedArgument => exact ⟨[0x80, 0x01], .inl ⟨0x80, by decide, .inl ⟨0x01, by decide, rfl⟩⟩⟩
  | invalidChannel =>
    obtain ⟨a1, a2, h⟩ := exists_undefined_channel
    exact ⟨[0x10, a1, a2], a1, a2, rfl, fun ⟨v, hv⟩ => h v hv⟩
  | invalidLength => exact ⟨[], by decide, by decide⟩
  | telemetryLength => exact ⟨[0x10, 0xE2], 0xE2, rfl⟩
  | heaterRange => exact ⟨[0x91, 0x02], 0x02, by decide, rfl⟩

/-- A write of two bytes that raises no error condition. -/
theorem raises_no_error {op : Byte} (ho : op ∈ accessorOpcodes) :
    ∀ e : ErrorCondition, ¬ e.raisedBy Config.tlmRom [op, 0x00] := by
  have hn : op ≠ 0x10 ∧ op ≠ 0x91 ∧ unassigned op = false := by
    simp only [accessorOpcodes, List.mem_cons, List.not_mem_nil, or_false] at ho
    rcases ho with rfl | rfl | rfl | rfl | rfl | rfl | rfl | rfl | rfl <;> decide
  intro e he
  cases e with
  | unknownCommand =>
    obtain ⟨op', args, h, hu⟩ := he
    obtain ⟨rfl, -⟩ := List.cons.inj h
    rw [hn.2.2] at hu
    cases hu
  | malformedArgument =>
    obtain ⟨op', -, ⟨a1, ha, h⟩ | ⟨a1, a2, h⟩⟩ | ⟨a1, a2, h⟩ := he
    · cases h
      exact ha rfl
    · cases h
    · cases h
  | invalidChannel =>
    obtain ⟨a1, a2, h, -⟩ := he
    cases h
  | invalidLength => exact he.1 rfl
  | telemetryLength =>
    obtain ⟨a1, h⟩ := he
    cases h
    exact hn.1 rfl
  | heaterRange =>
    obtain ⟨a1, -, h⟩ := he
    cases h
    exact hn.2.1 rfl

theorem witness_AWriteRaisesAtMostOneError :
    (∃ w : List Byte, ErrorCondition.raisedBy Config.tlmRom w .heaterRange) ∧
    (∃ w : List Byte, ∀ e : ErrorCondition, ¬ e.raisedBy Config.tlmRom w) :=
  ⟨⟨[0x91, 0x02], 0x02, by decide, rfl⟩, ⟨[0x04, 0x00], raises_no_error (by decide)⟩⟩

theorem witness_SentinelWithoutAnErrorIsACountOrAReading :
    ∃ (w : List Byte) (s : State) (d : Device), s.dev.Legal ∧ (∀ e : ErrorCondition, ¬ e.raisedBy Config.tlmRom w) ∧
      deviceAfter [.write w] s = some d ∧ d.last_response = 0xFFFF :=
  ⟨[0x33, 0x00], state 0 0 0xFFFF 1, _, state_legal 0 0xFFFF 1, raises_no_error (by decide), rfl, rfl⟩

theorem witness_RepeatingAWriteIsIdempotentUnlessMrst : ([0x80, 0x01] : List Byte) ≠ [0x80, 0x00] := by decide

/-- Both cases, the count that wraps, and the MRSTs that are malformed. -/
theorem witness_EachStepCountsTheMrstItDelivers :
    (∃ t, step ((state 0 0 0xFFFF 1).offer (.write [0x80, 0x00])) = .next t ∧ t.dev.manual_resets = 0x0000) ∧
    (∃ t, step ((state 0 0 0xFFFF 1).offer (.write [0x80, 0x01])) = .next t ∧ t.dev.manual_resets = 0xFFFF) ∧
    (∃ t, step ((state 0 0 0xFFFF 1).offer (.write [0x80, 0x00, 0x00])) = .next t ∧ t.dev.manual_resets = 0xFFFF) ∧
    (∃ t, step (state 0 0 0xFFFF 1) = .next t ∧ t.dev.manual_resets = 0xFFFF) :=
  ⟨⟨_, rfl, rfl⟩, ⟨_, rfl, rfl⟩, ⟨_, rfl, rfl⟩, ⟨_, rfl, rfl⟩⟩

theorem witness_ManualResetsCountWellFormedMrst :
    ∃ d, deviceAfter [.write [0x80, 0x00], .write [0x80, 0x01], .read 2] State.reset = some d ∧ d.manual_resets = 1 :=
  ⟨_, rfl, rfl⟩

theorem witness_BehaviourDependsOnTheDeviceAlone :
    ∃ s t : State, s.dev = t.dev ∧ s ≠ t ∧ ([.read 2] : List Transaction) ≠ [] :=
  ⟨State.reset, State.reset.offer (.read 5), rfl, by decide, by decide⟩

theorem witness_InstancesAreIndependent : ∃ (i j : Fin 2) (sys a b : Vector State 2), i ≠ j ∧
    stepInstance i sys = .next a ∧ stepInstance j sys = .next b :=
  ⟨0, 1, Vector.replicate 2 (State.reset.offer (.write [0x80, 0x00])), _, _, by decide, rfl, rfl⟩

/-- Each instance of a new system is at the fixed defaults (R172, R190). -/
theorem test_resetInstances : (resetInstances 3).toList = [State.reset, State.reset, State.reset] := by decide

end Sys2Proof.Machine.Tests
end

/-! SUPPORT. Bit 3 of `board_status`, the telemetry fault (R29). -/

namespace Sys2Proof.Machine

/-- The rows of R104 that change bit 3 are the two rows of a 3-byte GTLM, and the one that clears it has a defined code:
every other row leaves the status alone, or touches bits 0 and 2 only. -/
theorem WritePath.gtlm_of_telemetryBit_ne {w : List Byte} {d d' : Device} {n : Nat} (hp : WritePath w d n d')
    (hne : d'.board_status[3] ≠ d.board_status[3]) :
    ∃ a1 a2 : Byte, w = [0x10, a1, a2] ∧
      (d'.board_status[3] = false → ∃ v, (channelCode a1 a2, v) ∈ Config.tlmRom.entries) := by
  cases hp with
  | channel a1 a2 hv => exact ⟨a1, a2, rfl, fun _ => ⟨_, hv⟩⟩
  | noChannel a1 a2 => exact ⟨a1, a2, rfl, by simp⟩
  | badlen | unknown | malformed | accessor | manualReset | telemetryLength | heater | heaterRange | heaterLength =>
    exact absurd (by simp) hne

/-- Settles O40: a step that changes the Device takes a row of R104, and only the rows of a 3-byte GTLM change bit 3. -/
theorem onlyGtlmChangesTheTelemetryBit : Obligations.OnlyGtlmChangesTheTelemetryBit := by
  intro s t hstep hne
  obtain ⟨hkeep, -⟩ | ⟨w, rest, n, d, hbus, hpath, rfl, -⟩ := step_dev_cases hstep
  · exact absurd (by rw [hkeep]) hne
  · obtain ⟨a1, a2, rfl, hclear⟩ := hpath.gtlm_of_telemetryBit_ne hne
    refine ⟨a1, a2, rest, hbus, fun h => ?_⟩
    obtain ⟨v, hv⟩ := hclear h
    exact ⟨channelCode a1 a2, v, channelCode_toNat a1 a2, hv⟩

end Sys2Proof.Machine

/-! SUPPORT. The unassigned opcodes and UNKNOWN (R79, R99). -/

namespace Sys2Proof

/-- The ranges that R79 lists leave out exactly the keys of the opcode table. -/
theorem unassigned_iff_notMem_opcodeTable (op : Byte) :
    unassigned op = true ↔ op ∉ opcodeTable.map Prod.fst := by
  rw [unassigned_eq_lookupOpcode_isNone, lookupOpcode, Option.isNone_map, Option.isNone_iff_eq_none,
    List.find?_eq_none]
  simp only [beq_iff_eq, List.mem_map, not_exists, not_and]

/-- There are 245 unassigned opcodes: the values of a byte without the eleven keys of the table. -/
theorem unassigned_count : ((List.range 256).filter fun n => unassigned (BitVec.ofNat 8 n)).length = 245 := by
  decide +kernel

/-- A write of an unassigned opcode, in either format, decodes to UNKNOWN (R79). -/
theorem decode_write_of_unassigned {op : Byte} (h : unassigned op = true) (args : Args) :
    decode (.write (op :: args.bytes)) = .ok (.unknown op args) := by
  rw [decode, decodeWrite_frame, decodeCommand_of_unassigned h]

end Sys2Proof

namespace Sys2Proof.Machine

/-- The whole next state of UNKNOWN (R99), with the literals of the spec. -/
theorem exec_unknown (op : Byte) (args : Args) (s : State) :
    exec (.unknown op args) s = .next { s with
      dev := { s.dev with
        board_status := s.dev.board_status ||| 0x0001
        last_response := 0xFFFF }
      reply := some (.ack (argsLength args)) } := rfl

/-- Settles O34: outside the eleven opcodes a write of either format decodes to UNKNOWN, whose meaning examines only the
length of its arguments. -/
theorem unassignedOpcodesSetTheUnknownBit : Obligations.UnassignedOpcodesSetTheUnknownBit := by
  refine ⟨fun op hop => ?_, unassigned_count, unassigned_iff_notMem_opcodeTable, rfl⟩
  have hu : unassigned op = true := (unassigned_iff_notMem_opcodeTable op).mpr hop
  exact ⟨fun a1 => ⟨decode_write_of_unassigned hu (.w2 a1), exec_unknown op (.w2 a1)⟩,
    fun a1 a2 => ⟨decode_write_of_unassigned hu (.w3 a1 a2), exec_unknown op (.w3 a1 a2)⟩⟩

end Sys2Proof.Machine

/-! SUPPORT. A write of a length other than 2 and 3, BADLEN (R73, R91). -/

namespace Sys2Proof

/-- A write of another length decodes to BADLEN with all its bytes, none of them interpreted (R81). -/
theorem decode_write_of_length {w : List Byte} (h2 : w.length ≠ 2) (h3 : w.length ≠ 3) :
    decode (.write w) = .ok (.badlen w) := by
  rw [decode, decodeWrite_of_length h2 h3]

end Sys2Proof

namespace Sys2Proof.Machine

/-- The whole next state of BADLEN (R91): the sentinel is latched, and the count is 2 whatever the bytes are. -/
theorem exec_badlen (w : List Byte) (s : State) :
    exec (.badlen w) s = .next { s with
      dev := { s.dev with last_response := 0xFFFF }
      reply := some (.ack 2) } := rfl

/-- Settles O35: the decoder goes by the length alone, and the meaning of BADLEN does not look at the bytes; the example
of R91 is run from reset. -/
theorem badlenChangesOnlyTheLatch : Obligations.BadlenChangesOnlyTheLatch :=
  ⟨fun w h2 h3 => ⟨decode_write_of_length h2 h3, exec_badlen w⟩, rfl, rfl⟩

end Sys2Proof.Machine

/-! SUPPORT. The accessors that answer a register and have no further effect (R110), and the query that reads an answer. -/

namespace Sys2Proof.Machine

/-- The state after a well-formed accessor without a further effect that answers `v` (R110), with the literals of the spec. -/
def State.afterAccessor (s : State) (v : Word) : State :=
  { s with
    dev := { s.dev with
      board_status := s.dev.board_status &&& 0xFFFA
      last_response := v }
    reply := some (.ack 2) }

/-- A well-formed accessor without a further effect answers the value that its register holds after the clear (R110). -/
theorem simpleAccessor_eq_afterAccessor (value : Device → Word) {s : State} {v : Word}
    (hv : value s.dev.clearFaults = v) : simpleAccessor (.w2 0x00) id value s = .next (s.afterAccessor v) := by
  subst hv
  exact simpleAccessor_ok id value s

/-- A QUERY (R84): the READ of two bytes returns the response that the write latched, low byte first (R55, R150). -/
theorem answerAfter_query {w : List Byte} {i : Instr} {s t : State} (hd : decode (.write w) = .ok i)
    (he : exec i s = .next t) :
    answerAfter [.write w, .read 2] s =
      some (.data [responseLow t.dev.last_response, responseHigh t.dev.last_response] 2) := by
  have hstep : step (s.offer (.write w)) = .next t := by
    rw [step_offer, hd]
    exact he
  have hafter : after [.write w, .read 2] s = after [.read 2] t := by
    rw [after, hstep]
  rw [answerAfter, replyAfter, hafter, after_read (Nat.le_refl 2)]
  rfl

section Registers
variable {s : State} {v : Word}

/-! ### The value of each accessor is a register that the clear leaves alone -/

theorem exec_gle (hv : s.dev.last_error = v) : exec (.gle (.w2 0x00)) s = .next (s.afterAccessor v) :=
  simpleAccessor_eq_afterAccessor (fun d => d.last_error) hv

theorem exec_gver (hv : s.dev.version = v) : exec (.gver (.w2 0x00)) s = .next (s.afterAccessor v) :=
  simpleAccessor_eq_afterAccessor (fun d => d.version) hv

theorem exec_gcs (hv : s.dev.checksum = v) : exec (.gcs (.w2 0x00)) s = .next (s.afterAccessor v) :=
  simpleAccessor_eq_afterAccessor (fun d => d.checksum) hv

theorem exec_gbor (hv : s.dev.brownout_resets = v) : exec (.gbor (.w2 0x00)) s = .next (s.afterAccessor v) :=
  simpleAccessor_eq_afterAccessor (fun d => d.brownout_resets) hv

theorem exec_gasr (hv : s.dev.auto_software_resets = v) : exec (.gasr (.w2 0x00)) s = .next (s.afterAccessor v) :=
  simpleAccessor_eq_afterAccessor (fun d => d.auto_software_resets) hv

end Registers

/-- Settles O16: GLE answers the register `last_error`, which the invariant fixes at 0 (R36). -/
theorem gleAnswersLastError : Obligations.GleAnswersLastError := by
  have hdecode : decode (.write [0x03, 0x00]) = .ok (.gle (.w2 0x00)) := rfl
  exact ⟨hdecode, fun _ => exec_gle rfl, fun _ hlegal => exec_gle hlegal.last_error,
    answerAfter_query hdecode (exec_gle rfl)⟩

/-- Settles O17: GVER answers the register `version`, which the invariant fixes at 0x1001 (R24). -/
theorem gverAnswersTheVersion : Obligations.GverAnswersTheVersion := by
  have hdecode : decode (.write [0x04, 0x00]) = .ok (.gver (.w2 0x00)) := rfl
  exact ⟨hdecode, fun _ hlegal => exec_gver hlegal.version, answerAfter_query hdecode (exec_gver rfl)⟩

/-- Settles O18: GCS answers the register `checksum`, which the invariant fixes at 0xBEEF (R25). -/
theorem gcsAnswersTheChecksum : Obligations.GcsAnswersTheChecksum := by
  have hdecode : decode (.write [0x05, 0x00]) = .ok (.gcs (.w2 0x00)) := rfl
  exact ⟨hdecode, fun _ hlegal => exec_gcs hlegal.checksum, answerAfter_query hdecode (exec_gcs rfl)⟩

/-- Settles O19: GBOR answers the register `brownout_resets`, which the invariant fixes at 0 (R34). -/
theorem gborAnswersTheBrownoutCount : Obligations.GborAnswersTheBrownoutCount := by
  have hdecode : decode (.write [0x31, 0x00]) = .ok (.gbor (.w2 0x00)) := rfl
  exact ⟨hdecode, fun _ => exec_gbor rfl, fun _ hlegal => exec_gbor hlegal.brownout,
    answerAfter_query hdecode (exec_gbor rfl)⟩

/-- Settles O20: GASR answers the register `auto_software_resets`, which the invariant fixes at 0 (R34). -/
theorem gasrAnswersTheSoftwareResetCount : Obligations.GasrAnswersTheSoftwareResetCount := by
  have hdecode : decode (.write [0x32, 0x00]) = .ok (.gasr (.w2 0x00)) := rfl
  exact ⟨hdecode, fun _ => exec_gasr rfl, fun _ hlegal => exec_gasr hlegal.auto_software,
    answerAfter_query hdecode (exec_gasr rfl)⟩

end Sys2Proof.Machine

/-! SUPPORT. GTLM and the telemetry lookup (R130, R131). -/

namespace Sys2Proof.Machine

/-- Settles O26: the codes of a table are distinct, so the pair that the lookup finds is the only one with its code. -/
theorem romLookupFindsExactlyThePairs : Obligations.RomLookupFindsExactlyThePairs :=
  fun _ _ => ⟨fun _ => romLookup_of_mem, romLookup_of_forall_notMem⟩

/-- The channel code of two bytes is the only word whose value they write big-endian (R54). -/
theorem eq_channelCode_of_toNat {a1 a2 : Byte} {code : Word} (h : code.toNat = 256 * a1.toNat + a2.toNat) :
    code = channelCode a1 a2 :=
  BitVec.eq_of_toNat_eq (h.trans (channelCode_toNat a1 a2).symm)

/-- A single write leaves the Device of the state that its instruction answers. -/
theorem deviceAfter_single_write {w : List Byte} {i : Instr} {s t : State} (hd : decode (.write w) = .ok i)
    (he : exec i s = .next t) : deviceAfter [.write w] s = some t.dev := by
  have hstep : step (s.offer (.write w)) = .next t := by
    rw [step_offer, hd]
    exact he
  rw [deviceAfter, after, hstep]
  rfl

/-- A write with opcode 0x10 decodes to GTLM, in both formats. -/
theorem decode_write_gtlm (args : Args) : decode (.write (0x10 :: args.bytes)) = .ok (.gtlm args) :=
  congrArg Except.ok (decodeWrite_frame Opcode.gtlm args)

/-- GTLM of an undefined channel on the Device (R133): the fault is recorded after the clear. -/
theorem readChannel_of_forall_notMem {rom : TlmRom} {code : Word} (h : ∀ v, (code, v) ∉ rom.entries) (d : Device) :
    readChannel rom code d = d.clearFaults.recordFault maskTelemetry := by
  simp [readChannel, romLookup_of_forall_notMem h]

/-- The whole next state of GTLM of an undefined channel (R133), with the literals of the spec. -/
theorem exec_gtlm_of_forall_notMem {a1 a2 : Byte} (h : ∀ v, (channelCode a1 a2, v) ∉ Config.tlmRom.entries) (s : State) :
    exec (.gtlm (.w3 a1 a2)) s = .next { s with
      dev := { s.dev with
        board_status := (s.dev.board_status &&& 0xFFFA) ||| 0x0008
        last_response := 0xFFFF }
      reply := some (.ack 3) } :=
  congrArg (completeWrite 3 · s) (readChannel_of_forall_notMem h s.dev)

/-- The whole next state of GTLM with the wrong length (R134), with the literals of the spec. -/
theorem exec_gtlm_two_bytes (a1 : Byte) (s : State) :
    exec (.gtlm (.w2 a1)) s = .next { s with
      dev := { s.dev with
        board_status := s.dev.board_status &&& 0xFFFA
        last_response := 0xFFFF }
      reply := some (.ack 2) } := rfl

/-- Settles O29: the lookup of an undefined code answers the fault, which is recorded after the clear; the examples of R133
are the literals of that next state. -/
theorem gtlmOfAnUndefinedChannel : Obligations.GtlmOfAnUndefinedChannel := by
  intro a1 a2 code hcode hundefined
  obtain rfl := eq_channelCode_of_toNat hcode
  have hdecode : decode (.write [0x10, a1, a2]) = .ok (.gtlm (.w3 a1 a2)) := decode_write_gtlm (.w3 a1 a2)
  have hexec := exec_gtlm_of_forall_notMem hundefined
  refine ⟨hexec, fun s hs => ?_, ?_, answerAfter_query hdecode (hexec State.reset)⟩
  · rw [deviceAfter_single_write hdecode (hexec s), hs]
    rfl
  · rw [deviceAfter_single_write hdecode (hexec State.reset)]
    rfl

/-- Settles O30: with two bytes GTLM makes no lookup and examines no argument; the examples of R134 are the literals of its
next state. -/
theorem gtlmOfTwoBytesClearsTheFaults : Obligations.GtlmOfTwoBytesClearsTheFaults := by
  intro a1
  have hdecode : decode (.write [0x10, a1]) = .ok (.gtlm (.w2 a1)) := decode_write_gtlm (.w2 a1)
  have hexec := exec_gtlm_two_bytes a1
  refine ⟨hdecode, hexec, fun s hs => ?_, fun s hs => ?_⟩
  · rw [deviceAfter_single_write hdecode (hexec s), hs]
    rfl
  · rw [deviceAfter_single_write hdecode (hexec s), hs]
    rfl

end Sys2Proof.Machine

/-! SUPPORT. SHTR in range and with the wrong length (R140, R141, R143), and a write at the head of a sequence. -/

namespace Sys2Proof.Machine

/-- A write at the head of a sequence leaves the rest to run from the state that its instruction answers. -/
theorem after_write_of_exec {w : List Byte} {i : Instr} {s t : State} (hd : decode (.write w) = .ok i)
    (he : exec i s = .next t) (ts : List Transaction) : after (.write w :: ts) s = after ts t := by
  have hstep : step (s.offer (.write w)) = .next t := by
    rw [step_offer, hd]
    exact he
  rw [after, hstep]

/-- A write with opcode 0x91 decodes to SHTR, in both formats. -/
theorem decode_write_shtr (args : Args) : decode (.write (0x91 :: args.bytes)) = .ok (.shtr args) :=
  congrArg Except.ok (decodeWrite_frame Opcode.shtr args)

/-- SHTR of a value in range on the Device (R141): the bit is stored after the clear, and the result is 0. -/
theorem requestHeater_of_le {a1 : Byte} (h : a1.toNat ≤ 1) (d : Device) :
    requestHeater a1 d = (d.clearFaults.setHeater (heaterBit a1)).latch 0x0000 := by
  rw [requestHeater, if_pos ((heaterInRange_iff a1).mpr h)]

/-- The whole next state of SHTR of a value in range (R141), with the literals of the spec. -/
theorem exec_shtr_of_le {a1 : Byte} (h : a1.toNat ≤ 1) (s : State) :
    exec (.shtr (.w2 a1)) s = .next { s with
      dev := { s.dev with
        board_status := s.dev.board_status &&& 0xFFFA
        heater_controller_status := heaterBit a1
        last_response := 0x0000 }
      reply := some (.ack 2) } :=
  congrArg (completeWrite 2 · s) (requestHeater_of_le h s.dev)

/-- The whole next state of SHTR with the wrong length (R143), with the literals of the spec. -/
theorem exec_shtr_three_bytes (a1 a2 : Byte) (s : State) :
    exec (.shtr (.w3 a1 a2)) s = .next { s with
      dev := { s.dev with
        board_status := s.dev.board_status ||| 0x0004
        last_response := 0xFFFF }
      reply := some (.ack 3) } := rfl

/-- GHTR answers the heater status, extended with zeros (R118); the clear leaves that register alone. -/
theorem exec_ghtr (s : State) :
    exec (.ghtr (.w2 0x00)) s = .next (s.afterAccessor (heaterWord s.dev.heater_controller_status)) :=
  simpleAccessor_eq_afterAccessor (fun d => heaterWord d.heater_controller_status) rfl

/-- Settles O31: both values are in range, so bit 0 of each is stored; the examples of R141 run SHTR's next states one after
the other, the last one with the GHTR that reads the bit back. -/
theorem shtrInRangeStoresTheBit : Obligations.ShtrInRangeStoresTheBit := by
  have hdecodeOff : decode (.write [0x91, 0x00]) = .ok (.shtr (.w2 0x00)) := decode_write_shtr (.w2 0x00)
  have hdecodeOn : decode (.write [0x91, 0x01]) = .ok (.shtr (.w2 0x01)) := decode_write_shtr (.w2 0x01)
  have hdecodeGet : decode (.write [0x90, 0x00]) = .ok (.ghtr (.w2 0x00)) := rfl
  have hoff := exec_shtr_of_le (a1 := 0x00) (by decide)
  have hon := exec_shtr_of_le (a1 := 0x01) (by decide)
  refine ⟨hoff, hon, ?_, ?_, ?_⟩
  · rw [deviceAfter_single_write hdecodeOff (hoff _)]
    rfl
  · rw [deviceAfter, after_write_of_exec hdecodeOff (hoff _), after_write_of_exec hdecodeOn (hon _), after_nil]
    rfl
  · rw [answerAfter, replyAfter, after_write_of_exec hdecodeOff (hoff _)]
    exact answerAfter_query hdecodeGet (exec_ghtr _)

/-- Settles O33: with three bytes SHTR examines no argument and takes the malformed path; the example of R143 is the literals
of its next state. -/
theorem shtrOfThreeBytesIsMalformed : Obligations.ShtrOfThreeBytesIsMalformed := by
  have hdecode (a1 a2 : Byte) : decode (.write [0x91, a1, a2]) = .ok (.shtr (.w3 a1 a2)) :=
    decode_write_shtr (.w3 a1 a2)
  refine ⟨fun a1 a2 => ⟨hdecode a1 a2, exec_shtr_three_bytes a1 a2⟩, ?_⟩
  rw [deviceAfter_single_write (hdecode 0x00 0x00) (exec_shtr_three_bytes 0x00 0x00 State.reset)]
  rfl

end Sys2Proof.Machine

/-! SUPPORT. READ of two bytes or more (R150). -/

namespace Sys2Proof

/-- A READ of two bytes or more decodes to itself. -/
theorem decode_read_of_le {k : Nat} (hk : 2 ≤ k) : decode (.read k) = .ok (.read k) := by
  rw [decode, if_neg (Nat.not_lt.mpr hk)]

end Sys2Proof

namespace Sys2Proof.Machine

/-- The whole next state of a READ of two bytes or more (R150): only the reply and the count of free bytes change. -/
theorem exec_read_of_le {k : Nat} (hk : 2 ≤ k) (s : State) :
    exec (.read k) s = .next { s with
      reply := some (.data (readBytes s.dev.last_response k s.draws) k)
      draws := s.draws + (k - 2) } :=
  execRead_of_le hk s

/-- Settles O36: the first two bytes of the output are the low and the high byte of the response and the `k - 2` others are
drawn; the example of R150 reads the answer of GVER from reset. -/
theorem readSerializesTheResponse : Obligations.ReadSerializesTheResponse := by
  refine ⟨fun k s hk => ⟨decode_read_of_le hk, responseLow s.dev.last_response, responseHigh s.dev.last_response,
    (List.range (k - 2)).map fun j => Config.freeByte (s.draws + j), s.draws + (k - 2),
    responseLow_toNat _, responseHigh_toNat _, ?_, exec_read_of_le hk s⟩, ?_⟩
  · rw [List.length_map, List.length_range]
  · have hdecode : decode (.write [0x04, 0x00]) = .ok (.gver (.w2 0x00)) := rfl
    rw [replyAfter, after_write_of_exec hdecode (exec_gver rfl), after_read (Nat.le_refl 2), after_nil]
    rfl

end Sys2Proof.Machine

namespace Sys2Proof.Machine

/-- Settles O10: `Device.reset` holds the literals of R191, one `rfl` for each row of its table. -/
theorem resetDeviceHoldsTheStatedValues : Obligations.ResetDeviceHoldsTheStatedValues :=
  ⟨rfl, rfl, rfl, rfl, rfl, rfl, rfl, rfl, rfl⟩

end Sys2Proof.Machine

/-! SUPPORT. A write runs the row of the effect table R104 that it takes, and that row alone: the converse of
`exec_write_path`, for one write, for the step that delivers it and for a sequence that begins with it. -/

namespace Sys2Proof.Machine

/-- The accessors other than MRST are commands of the table, and each answers the response that `accessorResponses` lists. -/
theorem exec_accessor_response {op : Byte} {v : Word} {s : State} (h : (op, v) ∈ accessorResponses s.dev) :
    exec (decodeWrite [op, 0x00]) s = completeWrite 2 (s.dev.clearFaults.latch v) s := by
  simp only [accessorResponses, List.mem_cons, List.not_mem_nil, or_false, Prod.mk.injEq] at h
  rcases h with ⟨rfl, rfl⟩ | ⟨rfl, rfl⟩ | ⟨rfl, rfl⟩ | ⟨rfl, rfl⟩ | ⟨rfl, rfl⟩ | ⟨rfl, rfl⟩ | ⟨rfl, rfl⟩ | ⟨rfl, rfl⟩ <;> rfl

/-- The rows of the opcode table that are simple accessors (R110). -/
def accessorTable : List (Byte × (Args → Instr)) :=
  [(0x01, .gbs), (0x03, .gle), (0x04, .gver), (0x05, .gcs), (0x31, .gbor), (0x32, .gasr), (0x33, .gmr), (0x80, .mrst),
   (0x90, .ghtr)]

/-- Its keys are the opcodes that R92 lists. -/
theorem accessorTable_keys : accessorTable.map Prod.fst = accessorOpcodes := rfl

/-- Each command of it is decoded from its key. -/
theorem decodeCommand_accessorTable {row : Byte × (Args → Instr)} (hr : row ∈ accessorTable) (args : Args) :
    decodeCommand row.1 args = row.2 args := by
  simp only [accessorTable, List.mem_cons, List.not_mem_nil, or_false] at hr
  rcases hr with rfl | rfl | rfl | rfl | rfl | rfl | rfl | rfl | rfl <;> rfl

/-- Each command of it has the common behaviour of R110, with an effect and a value of its own. -/
theorem exec_accessorTable {row : Byte × (Args → Instr)} (hr : row ∈ accessorTable) :
    ∃ (effect : Device → Device) (value : Device → Word),
      ∀ args s, exec (row.2 args) s = simpleAccessor args effect value s := by
  simp only [accessorTable, List.mem_cons, List.not_mem_nil, or_false] at hr
  rcases hr with rfl | rfl | rfl | rfl | rfl | rfl | rfl | rfl | rfl
  · exact ⟨id, fun d => d.board_status, fun _ _ => rfl⟩
  · exact ⟨id, fun d => d.last_error, fun _ _ => rfl⟩
  · exact ⟨id, fun d => d.version, fun _ _ => rfl⟩
  · exact ⟨id, fun d => d.checksum, fun _ _ => rfl⟩
  · exact ⟨id, fun d => d.brownout_resets, fun _ _ => rfl⟩
  · exact ⟨id, fun d => d.auto_software_resets, fun _ _ => rfl⟩
  · exact ⟨id, fun d => d.manual_resets, fun _ _ => rfl⟩
  · exact ⟨Device.countManualReset, fun _ => 0x0000, fun _ _ => rfl⟩
  · exact ⟨id, fun d => heaterWord d.heater_controller_status, fun _ _ => rfl⟩

/-- An accessor on every form but the well-formed one takes the malformed-argument path (R97, R110). -/
theorem exec_accessor_malformed {row : Byte × (Args → Instr)} (hr : row ∈ accessorTable) {args : Args}
    (ha : args ≠ .w2 0x00) (s : State) : exec (row.2 args) s = malformed args s := by
  obtain ⟨effect, value, he⟩ := exec_accessorTable hr
  rw [he, simpleAccessor_malformed ha]

/-- So does the write of an accessor's opcode with any other arguments, in both formats. -/
theorem exec_decodeWrite_malformed {op : Byte} (hop : op ∈ accessorOpcodes) {args : Args} (ha : args ≠ .w2 0x00)
    (s : State) : exec (decodeWrite (op :: args.bytes)) s = malformed args s := by
  rw [← accessorTable_keys] at hop
  obtain ⟨row, hr, rfl⟩ := List.mem_map.mp hop
  rw [decodeWrite_frame, decodeCommand_accessorTable hr, exec_accessor_malformed hr ha]

/-- GTLM of a defined channel on the Device (R132): bits 0, 2 and 3 are cleared, and the reading is latched. -/
theorem readChannel_of_mem {rom : TlmRom} {code v : Word} (h : (code, v) ∈ rom.entries) (d : Device) :
    readChannel rom code d = d.clearFaults.clearTelemetry.latch v := by
  simp [readChannel, romLookup_of_mem h]

/-- SHTR of a value out of range on the Device (R142): bits 0 and 2 are cleared, and nothing is stored. -/
theorem requestHeater_of_two_le {a1 : Byte} (h : 2 ≤ a1.toNat) (d : Device) :
    requestHeater a1 d = d.clearFaults.answerError := by
  have hr : ¬ heaterInRange a1 = true := by rw [heaterInRange_iff]; omega
  rw [requestHeater, if_neg hr]

/-- A row of R104 is what the write's meaning does: no write takes two rows with different effects. -/
theorem WritePath.exec_eq {w : List Byte} {n : Nat} {d : Device} {s : State} (hp : WritePath w s.dev n d) :
    exec (decodeWrite w) s = completeWrite n d s := by
  cases hp with
  | badlen h2 h3 => rw [decodeWrite_of_length h2 h3]; rfl
  | unknown args hu => rw [decodeWrite_frame, decodeCommand_of_unassigned hu]; rfl
  | malformed hop ha => exact exec_decodeWrite_malformed hop ha s
  | accessor hv => exact exec_accessor_response hv
  | manualReset | telemetryLength a1 | heaterLength a1 a2 => rfl
  | channel a1 a2 hv => exact congrArg (completeWrite 3 · s) (readChannel_of_mem hv s.dev)
  | noChannel a1 a2 hn => exact congrArg (completeWrite 3 · s) (readChannel_of_forall_notMem hn s.dev)
  | heater a1 h => exact congrArg (completeWrite 2 · s) (requestHeater_of_le h s.dev)
  | heaterRange a1 h => exact congrArg (completeWrite 2 · s) (requestHeater_of_two_le h s.dev)

/-- A state in which a transaction is delivered next is one to which that transaction was offered. -/
theorem step_of_bus {s : State} {t : Transaction} {rest : List Transaction} (hb : s.bus = t :: rest) :
    step s = step (State.offer { s with bus := rest } t) := by
  rw [State.offer, ← hb]

/-- The step that delivers a write does what the row of R104 says. -/
theorem WritePath.step_eq {w : List Byte} {n : Nat} {d : Device} {s : State} {rest : List Transaction}
    (hp : WritePath w s.dev n d) (hb : s.bus = .write w :: rest) :
    step s = .next { s with dev := d, bus := rest, reply := some (.ack n) } := by
  rw [step_of_bus hb]
  exact hp.exec_eq (s := { s with bus := rest })

/-- A write at the head of a sequence does what the row of R104 says, and the rest runs from there. -/
theorem WritePath.after_eq {w : List Byte} {n : Nat} {d : Device} {s : State} (hp : WritePath w s.dev n d)
    (ts : List Transaction) : after (.write w :: ts) s = after ts { s with dev := d, reply := some (.ack n) } :=
  after_write_of_exec rfl hp.exec_eq ts

/-- Every write takes a row of R104, whatever the Device is. -/
theorem exists_writePath (w : List Byte) (d : Device) : ∃ n d', WritePath w d n d' := by
  obtain ⟨n, d', hp, -⟩ := exec_write_path w { State.reset with dev := d }
  exact ⟨n, d', hp⟩

end Sys2Proof.Machine

/-! SUPPORT. The encoding (R70 to R79, R81). -/

namespace Sys2Proof

/-- The encoder writes each command of the table with the table's key, and every operand of it is well-formed (R76, R80). -/
theorem encode_opcodeTable {row : Byte × (Args → Instr)} (hr : row ∈ opcodeTable) (args : Args) :
    encode (row.2 args) = .write (row.1 :: args.bytes) ∧ (row.2 args).wellFormed = true := by
  simp only [opcodeTable, List.mem_cons, List.not_mem_nil, or_false] at hr
  rcases hr with rfl | rfl | rfl | rfl | rfl | rfl | rfl | rfl | rfl | rfl | rfl <;> exact ⟨rfl, rfl⟩

/-- A write of 2 or 3 bytes is the encoding of the command it decodes to. -/
theorem encode_decodeCommand (op : Byte) (args : Args) :
    encode (decodeCommand op args) = .write (op :: args.bytes) ∧ (decodeCommand op args).wellFormed = true := by
  cases hu : unassigned op with
  | true =>
    rw [decodeCommand_of_unassigned hu]
    exact ⟨rfl, hu⟩
  | false =>
    obtain ⟨row, hr, rfl, he⟩ := decodeCommand_of_assigned hu args
    rw [he]
    exact encode_opcodeTable hr args

/-- A write is the encoding of what it decodes to. -/
theorem encode_decodeWrite (w : List Byte) :
    encode (decodeWrite w) = .write w ∧ (decodeWrite w).wellFormed = true := by
  by_cases hw : w.length = 2 ∨ w.length = 3
  · obtain ⟨op, args, rfl⟩ := eq_frame_of_length hw
    rw [decodeWrite_frame]
    exact encode_decodeCommand op args
  · obtain ⟨h2, h3⟩ := not_or.mp hw
    rw [decodeWrite_of_length h2 h3]
    exact ⟨rfl, by simp [Instr.wellFormed, h2, h3]⟩

/-- Only a READ of two bytes or more decodes, and it decodes to itself. -/
theorem decode_read_eq_ok_iff {k : Nat} {i : Instr} : decode (.read k) = .ok i ↔ 2 ≤ k ∧ i = .read k := by
  by_cases hk : 2 ≤ k
  · simp [decode_read_of_le hk, hk, eq_comm]
  · simp [decode, Nat.lt_of_not_le hk, hk]

end Sys2Proof

namespace Sys2Proof.Machine

/-- Settles O1: each word falls into its format and its row of the opcode table by evaluation. -/
theorem framesDecodeToTheirCommands : Obligations.FramesDecodeToTheirCommands :=
  ⟨rfl, rfl, rfl, rfl, rfl, rfl, rfl, rfl, rfl, rfl, rfl, rfl⟩

/-- Settles O2: one round trip for each constructor of the instructions. -/
theorem decodeAfterEncodeGivesTheInstruction : Obligations.DecodeAfterEncodeGivesTheInstruction := by
  intro i hwf
  cases i with
  | gbs args => exact Laws.RoundTrip.gbs args hwf
  | gle args => exact Laws.RoundTrip.gle args hwf
  | gver args => exact Laws.RoundTrip.gver args hwf
  | gcs args => exact Laws.RoundTrip.gcs args hwf
  | gtlm args => exact Laws.RoundTrip.gtlm args hwf
  | gbor args => exact Laws.RoundTrip.gbor args hwf
  | gasr args => exact Laws.RoundTrip.gasr args hwf
  | gmr args => exact Laws.RoundTrip.gmr args hwf
  | mrst args => exact Laws.RoundTrip.mrst args hwf
  | ghtr args => exact Laws.RoundTrip.ghtr args hwf
  | shtr args => exact Laws.RoundTrip.shtr args hwf
  | unknown op args => exact Laws.RoundTrip.unknown op args hwf
  | badlen w => exact Laws.RoundTrip.badlen w hwf
  | read k => exact Laws.RoundTrip.read k hwf

/-- Settles O3: a write by its format and its opcode, a READ by its length. -/
theorem encodeAfterDecodeGivesTheTransaction : Obligations.EncodeAfterDecodeGivesTheTransaction := by
  intro t i hd
  cases t with
  | write w =>
    cases hd
    exact encode_decodeWrite w
  | read k =>
    obtain ⟨hk, rfl⟩ := decode_read_eq_ok_iff.mp hd
    exact ⟨rfl, decide_eq_true hk⟩

/-- Settles O4: a write that decodes to BADLEN is the encoding of that BADLEN, which is well-formed only at another length. -/
theorem onlyTheLengthMakesAWriteBadlen : Obligations.OnlyTheLengthMakesAWriteBadlen := by
  intro w
  constructor
  · rintro ⟨w', hd⟩
    obtain ⟨henc, hwf⟩ := encodeAfterDecodeGivesTheTransaction _ _ hd
    cases henc
    simpa [Instr.wellFormed] using hwf
  · rintro ⟨h2, h3⟩
    exact ⟨w, decode_write_of_length h2 h3⟩

end Sys2Proof.Machine

/-! SUPPORT. The step (R5, R62), a frame word as the next write (R82), and the READ that is refused (R154). -/

namespace Sys2Proof.Machine

/-- A READ of fewer than two bytes is rejected by the decoder (R154). -/
theorem decode_read_of_lt {k : Nat} (hk : k < 2) : decode (.read k) = .error (.readBufferShort k) :=
  if_pos hk

/-- Settles O5: the step delivers the transaction, and it decodes to `i`. -/
theorem stepRunsTheDecodedTransaction : Obligations.StepRunsTheDecodedTransaction := by
  intro s t rest i hb hd
  rw [step_of_bus hb, step_offer, hd]

/-- Settles O6: the frame word's write is placed before those that wait, so the next step runs it. -/
theorem frameWordRunsAsTheNextTransaction : Obligations.FrameWordRunsAsTheNextTransaction := by
  intro s nbits w i hi
  have hd : decode (.write (frameBytes nbits w)) = .ok i := congrArg Except.ok (Option.some.inj hi)
  rw [State.withFetchWord, step_offer, hd]

/-- Settles O7: an empty queue delivers nothing, and the machine is idle. -/
theorem stepWithoutATransactionChangesNothing : Obligations.StepWithoutATransactionChangesNothing := by
  intro s hb
  simp only [step, deliver, hb, idle]

/-- Settles O37: the decoder's rejection of a short READ and the meaning's refusal are the same test. -/
theorem shortReadIsRefused : Obligations.ShortReadIsRefused := by
  intro k hk
  have hd := decode_read_of_lt hk
  refine ⟨hd, fun _ => if_pos hk, fun s rest hb => ?_⟩
  rw [step_of_bus hb, step_offer, hd]
  rfl

/-- Settles O8: an idle step and a write always complete, and a READ does so from two bytes on. -/
theorem onlyAShortReadIsRefused : Obligations.OnlyAShortReadIsRefused := by
  intro s
  match hb : s.bus with
  | [] => exact .inl ⟨s, stepWithoutATransactionChangesNothing s hb, hb⟩
  | .write w :: rest =>
    obtain ⟨n, d, hp⟩ := exists_writePath w s.dev
    exact .inl ⟨_, hp.step_eq hb, rfl⟩
  | .read k :: rest =>
    by_cases hk : k < 2
    · obtain ⟨-, -, hstep⟩ := shortReadIsRefused k hk
      exact .inr ⟨k, rest, rfl, hk, hstep s rest hb⟩
    · have hk' : 2 ≤ k := Nat.le_of_not_lt hk
      have hstep := stepRunsTheDecodedTransaction s _ rest _ hb (decode_read_of_le hk')
      exact .inl ⟨_, hstep.trans (exec_read_of_le hk' _), rfl⟩

end Sys2Proof.Machine

/-! SUPPORT. The step of a write against the spec's normative pseudocode `WriteStep` (R92), one row of R104 at a time. -/

namespace Sys2Proof.Machine

/-- The pseudocode on an unassigned opcode: no case of its dispatch applies (R99). -/
theorem writeStep_unassigned {op : Byte} (hu : unassigned op = true) (args : Args) (rom : TlmRom) (d : Device) :
    writeStep rom d (op :: args.bytes) = (d.recordFault maskUnknown, argsLength args) := by
  rw [unassigned_iff_notMem_opcodeTable] at hu
  have haccessor : op ∉ accessorOpcodes := fun h => hu (by revert op; decide)
  have hgtlm : op ≠ 0x10 := fun h => hu (by rw [h]; decide)
  have hshtr : op ≠ 0x91 := fun h => hu (by rw [h]; decide)
  cases args <;> simp only [writeStep, Args.bytes, List.getD_cons_zero, if_neg haccessor, if_neg hgtlm, if_neg hshtr] <;> rfl

/-- The pseudocode on an accessor with any but the well-formed arguments (R97). -/
theorem writeStep_malformed {op : Byte} (hop : op ∈ accessorOpcodes) {args : Args} (ha : args ≠ .w2 0x00) (rom : TlmRom)
    (d : Device) : writeStep rom d (op :: args.bytes) = (d.recordFault maskMalformed, argsLength args) := by
  cases args with
  | w2 a1 =>
    have h0 : a1 ≠ 0x00 := fun h => ha (by rw [h])
    simp only [writeStep, Args.bytes, List.getD_cons_zero, List.getD_cons_succ, if_pos hop, h0, and_false, if_false]
    rfl
  | w3 a1 a2 =>
    simp only [writeStep, Args.bytes, List.getD_cons_zero, if_pos hop]
    rfl

/-- The pseudocode on a well-formed accessor other than MRST. It answers the literals of R113 and R114 where the row
answers the registers `version` and `checksum`, which a legal Device holds at those literals (log 21). -/
theorem writeStep_accessor {op : Byte} {v : Word} {d : Device} (hl : d.Legal) (hv : (op, v) ∈ accessorResponses d)
    (rom : TlmRom) : writeStep rom d [op, 0x00] = (d.clearFaults.latch v, 2) := by
  simp only [accessorResponses, hl.version, hl.checksum, List.mem_cons, List.not_mem_nil, or_false, Prod.mk.injEq] at hv
  rcases hv with ⟨rfl, rfl⟩ | ⟨rfl, rfl⟩ | ⟨rfl, rfl⟩ | ⟨rfl, rfl⟩ | ⟨rfl, rfl⟩ | ⟨rfl, rfl⟩ | ⟨rfl, rfl⟩ | ⟨rfl, rfl⟩ <;> rfl

/-- The pseudocode on a 3-byte GTLM (R130): both outcomes of the lookup. -/
theorem writeStep_gtlm (rom : TlmRom) (a1 a2 : Byte) (d : Device) :
    writeStep rom d [0x10, a1, a2] = (readChannel rom (channelCode a1 a2) d, 3) := by
  have hcode : a1 ++ a2 = channelCode a1 a2 := rfl
  simp only [writeStep, readChannel, List.getD_cons_zero, List.getD_cons_succ, hcode]
  cases (romLookup rom (channelCode a1 a2)).2 <;> rfl

/-- The pseudocode on a 2-byte SHTR (R140): both outcomes of its test. -/
theorem writeStep_shtr (a1 : Byte) (rom : TlmRom) (d : Device) :
    writeStep rom d [0x91, a1] = (requestHeater a1 d, 2) := by
  by_cases h : a1.toNat ≤ 1
  · rw [requestHeater_of_le h]
    exact congrArg (·, 2) (if_neg (Nat.not_lt.mpr h))
  · rw [requestHeater_of_two_le (Nat.lt_of_not_le h)]
    exact congrArg (·, 2) (if_pos (Nat.lt_of_not_le h))

/-- On a legal Device the pseudocode takes the row of R104 that the write takes. -/
theorem WritePath.writeStep_eq {w : List Byte} {d d' : Device} {n : Nat} (hp : WritePath w d n d') (hl : d.Legal) :
    writeStep Config.tlmRom d w = (d', n) := by
  cases hp with
  | badlen h2 h3 => exact if_pos ⟨h2, h3⟩
  | unknown args hu => exact writeStep_unassigned hu args _ d
  | malformed hop ha => exact writeStep_malformed hop ha _ d
  | accessor hv => exact writeStep_accessor hl hv _
  | manualReset | telemetryLength | heaterLength => rfl
  | channel a1 a2 hv => rw [writeStep_gtlm, readChannel_of_mem hv]
  | noChannel a1 a2 hn => rw [writeStep_gtlm, readChannel_of_forall_notMem hn]
  | heater a1 h => rw [writeStep_shtr, requestHeater_of_le h]
  | heaterRange a1 h => rw [writeStep_shtr, requestHeater_of_two_le h]

/-- Settles O9: the step and the pseudocode both take the row of R104 that the write takes. -/
theorem writeRunsTheNormativePseudocode : Obligations.WriteRunsTheNormativePseudocode := by
  intro s w rest hlegal hb
  obtain ⟨n, d, hp⟩ := exists_writePath w s.dev
  rw [hp.writeStep_eq hlegal, hp.step_eq hb]

end Sys2Proof.Machine

/-! SUPPORT. The invariant of a Device (R26, R31): every register write keeps it, so every row of R104 does. -/

namespace Sys2Proof.Machine

/-- An AND-clear sets no reserved bit. -/
theorem reserved_clearBits {status : Word} (h : status &&& 0xFFF2 = 0) (m : Word) : clearBits m status &&& 0xFFF2 = 0 := by
  rw [clearBits, BitVec.and_assoc, BitVec.and_comm (~~~m), ← BitVec.and_assoc, h]
  exact BitVec.zero_and

/-- An OR-set of a mask without reserved bits sets none. -/
theorem reserved_setBits {status m : Word} (h : status &&& 0xFFF2 = 0) (hm : m &&& 0xFFF2 = 0) :
    setBits m status &&& 0xFFF2 = 0 := by
  rw [setBits, BitVec.and_comm, BitVec.and_or_distrib_left, BitVec.and_comm, h, BitVec.and_comm, hm, BitVec.or_self]

namespace Device.Legal
variable {d : Device} (h : d.Legal)
include h

theorem latch (v : Word) : (d.latch v).Legal := { h with }
theorem countManualReset : d.countManualReset.Legal := { h with }
theorem setHeater (b : Bit) : (d.setHeater b).Legal := { h with }
theorem clearFaults : d.clearFaults.Legal := { h with reserved := reserved_clearBits h.reserved _ }
theorem clearTelemetry : d.clearTelemetry.Legal := { h with reserved := reserved_clearBits h.reserved _ }

/-- Recording a fault sets the bit of its mask alone. -/
theorem recordFault {m : Word} (hm : m &&& 0xFFF2 = 0) : (d.recordFault m).Legal :=
  { h with reserved := reserved_setBits h.reserved hm }

end Device.Legal

/-- Every row of R104 keeps the invariant: it is made of the register writes, and its mask is one of three. -/
theorem WritePath.legal {w : List Byte} {d d' : Device} {n : Nat} (hp : WritePath w d n d') (h : d.Legal) : d'.Legal := by
  cases hp with
  | badlen => exact h.latch _
  | unknown | malformed | heaterLength => exact h.recordFault rfl
  | accessor | telemetryLength | heaterRange => exact h.clearFaults.latch _
  | manualReset => exact h.clearFaults.countManualReset.latch _
  | channel => exact h.clearFaults.clearTelemetry.latch _
  | noChannel => exact h.clearFaults.recordFault rfl
  | heater => exact (h.clearFaults.setHeater _).latch _

/-- Settles O12: the register values of R191. -/
theorem resetDeviceIsLegal : Obligations.ResetDeviceIsLegal :=
  ⟨rfl, rfl, rfl, rfl, rfl, rfl⟩

/-- Settles O13: a step leaves the Device alone or takes a row of R104. -/
theorem stepKeepsTheDeviceLegal : Obligations.StepKeepsTheDeviceLegal := by
  intro s t hlegal hstep
  obtain ⟨hkeep, -⟩ | ⟨w, rest, n, d, -, hp, rfl, -⟩ := step_dev_cases hstep
  · exact hkeep ▸ hlegal
  · exact hp.legal hlegal

/-- Every state of a run from reset holds a legal Device. -/
theorem Reachable.legal {s : State} (hr : Reachable s) : s.dev.Legal := by
  induction hr with
  | start bus => exact resetDeviceIsLegal
  | step _ hstep ih => exact stepKeepsTheDeviceLegal _ _ ih hstep

/-- A status without reserved bits has a value below 16, and eight of those are without reserved bits (R31). -/
theorem mem_legalStatuses_of_reserved {status : Word} (h : status &&& 0xFFF2 = 0) : status ∈ legalStatuses := by
  have hlow : status = status &&& 0x000D := by
    calc status = status &&& (0xFFF2 ||| 0x000D) := (BitVec.and_allOnes).symm
      _ = status &&& 0x000D := by rw [BitVec.and_or_distrib_left, h]; exact BitVec.zero_or
  have hlt : status.toNat < 16 := by
    rw [hlow, BitVec.toNat_and]
    exact Nat.lt_of_le_of_lt Nat.and_le_right (by decide)
  have hsmall : ∀ n : Fin 16, BitVec.ofNat 16 n &&& 0xFFF2 = 0 → BitVec.ofNat 16 n ∈ legalStatuses := by decide
  simpa [BitVec.ofNat_toNat] using hsmall ⟨status.toNat, hlt⟩ (by simpa using h)

/-- The Device `d` is met on some run from reset, with any transactions still to come. -/
def Attainable (d : Device) : Prop := ∀ bus, ∃ s, Reachable s ∧ s.dev = d ∧ s.bus = bus

theorem attainable_reset : Attainable Device.reset :=
  fun bus => ⟨_, .start bus, rfl, rfl⟩

/-- What a write makes of a Device that is met is met. -/
theorem Attainable.write {w : List Byte} {d d' : Device} {n : Nat} (h : Attainable d) (hp : WritePath w d n d') :
    Attainable d' := by
  intro bus
  obtain ⟨s, hr, rfl, hb⟩ := h (.write w :: bus)
  exact ⟨_, hr.step (hp.step_eq hb), rfl, rfl⟩

/-- The status `v` is met on some run from reset. -/
def AttainableStatus (v : Word) : Prop := ∃ d, Attainable d ∧ d.board_status = v

theorem attainableStatus_reset : AttainableStatus 0x0000 := ⟨_, attainable_reset, rfl⟩

namespace AttainableStatus
variable {v : Word} (h : AttainableStatus v)
include h

/-- An unknown command sets bit 0 (R99). -/
theorem unknown : AttainableStatus (v ||| 0x0001) := by
  obtain ⟨d, hd, rfl⟩ := h
  exact ⟨_, hd.write (.unknown (op := 0x02) (.w2 0x00) rfl), rfl⟩

/-- A malformed argument sets bit 2 (R97). -/
theorem malformed : AttainableStatus (v ||| 0x0004) := by
  obtain ⟨d, hd, rfl⟩ := h
  exact ⟨_, hd.write (.heaterLength 0x00 0x00), rfl⟩

/-- An undefined channel sets bit 3 and clears bits 0 and 2 (R133). -/
theorem telemetry : AttainableStatus ((v &&& 0xFFFA) ||| 0x0008) := by
  obtain ⟨d, hd, rfl⟩ := h
  obtain ⟨a1, a2, hn⟩ := exists_undefined_channel
  exact ⟨_, hd.write (.noChannel a1 a2 hn), rfl⟩

theorem exists_reachable : ∃ s, Reachable s ∧ s.dev.board_status = v := by
  obtain ⟨d, hd, rfl⟩ := h
  obtain ⟨s, hr, rfl, -⟩ := hd []
  exact ⟨s, hr, rfl⟩

end AttainableStatus

/-- Each of the eight values is met: the telemetry fault first, where it is set, since recording it clears the other two. -/
theorem attainableStatus_of_mem {v : Word} (hv : v ∈ legalStatuses) : AttainableStatus v := by
  have h0 := attainableStatus_reset
  have h8 := h0.telemetry
  simp only [legalStatuses, List.mem_cons, List.not_mem_nil, or_false] at hv
  rcases hv with rfl | rfl | rfl | rfl | rfl | rfl | rfl | rfl
  · exact h0
  · exact h0.unknown
  · exact h0.malformed
  · exact h0.unknown.malformed
  · exact h8
  · exact h8.unknown
  · exact h8.malformed
  · exact h8.unknown.malformed

/-- Settles O14: the invariant leaves no other value, and a run for each of the eight meets it. -/
theorem statusTakesExactlyEightValues : Obligations.StatusTakesExactlyEightValues := by
  intro v
  constructor
  · rintro ⟨s, hr, rfl⟩
    exact mem_legalStatuses_of_reserved hr.legal.reserved
  · exact fun hv => (attainableStatus_of_mem hv).exists_reachable

end Sys2Proof.Machine

/-! SUPPORT. Who writes what (R20): one lemma for each register over the rows of R104, and what follows for steps and
sequences. -/

namespace Sys2Proof.Machine

/-- A write of an opcode and arguments has the length that its arguments have with the opcode (R71, R72). -/
theorem length_frame (op : Byte) (args : Args) : (op :: args.bytes).length = argsLength args := by
  cases args <;> rfl

/-- That length is 2 or 3 (R73). -/
theorem length_frame_eq_two_or_three (op : Byte) (args : Args) :
    (op :: args.bytes).length = 2 ∨ (op :: args.bytes).length = 3 := by
  cases args with
  | w2 => exact .inl rfl
  | w3 => exact .inr rfl

/-- The returned count of a row (R94). -/
theorem WritePath.count_eq {w : List Byte} {d d' : Device} {n : Nat} (hp : WritePath w d n d') :
    n = if w.length = 3 then 3 else 2 := by
  have hframe (op : Byte) (args : Args) : argsLength args = if (op :: args.bytes).length = 3 then 3 else 2 := by
    cases args <;> rfl
  cases hp with
  | badlen h2 h3 => rw [if_neg h3]
  | unknown | malformed => exact hframe _ _
  | accessor | manualReset | telemetryLength | channel | noChannel | heater | heaterRange | heaterLength => rfl

/-- Settles O46: every row returns the length of its write, but the row of BADLEN. -/
theorem writeReturnsItsLengthOrTwo : Obligations.WriteReturnsItsLengthOrTwo := by
  intro w s
  obtain ⟨n, d, hp⟩ := exists_writePath w s.dev
  rw [replyAfter, hp.after_eq, ← hp.count_eq]
  rfl

/-! ### `board_status` (R27 to R31) -/

/-- The values that a write of two or three bytes gives the status, in the combinations of R166. -/
def statusSuccessors (status : Word) : List Word :=
  [status &&& 0xFFFA, status &&& 0xFFF2, status ||| 0x0001, status ||| 0x0004, (status &&& 0xFFFA) ||| 0x0008]

/-- Clearing bits 0 and 2 and then bit 3 clears the three. -/
theorem clearTelemetry_clearFaults (status : Word) :
    clearBits maskTelemetry (clearBits maskClearFaults status) = status &&& 0xFFF2 := by
  rw [clearBits, clearBits, BitVec.and_assoc]
  rfl

/-- BADLEN leaves the status alone, and every other row gives it one of those values. -/
theorem WritePath.board_status_cases {w : List Byte} {d d' : Device} {n : Nat} (hp : WritePath w d n d') :
    d'.board_status = d.board_status ∨
      (w.length = 2 ∨ w.length = 3) ∧ d'.board_status ∈ statusSuccessors d.board_status := by
  cases hp with
  | badlen => exact .inl rfl
  | unknown => exact .inr ⟨length_frame_eq_two_or_three _ _, by simp [statusSuccessors, setBits, maskUnknown]⟩
  | malformed => exact .inr ⟨length_frame_eq_two_or_three _ _, by simp [statusSuccessors, setBits, maskMalformed]⟩
  | heaterLength => exact .inr ⟨.inr rfl, by simp [statusSuccessors, setBits, maskMalformed]⟩
  | accessor | manualReset | telemetryLength | heater | heaterRange =>
    exact .inr ⟨.inl rfl, by simp [statusSuccessors, clearBits_faults]⟩
  | channel => exact .inr ⟨.inr rfl, by simp [statusSuccessors, clearTelemetry_clearFaults]⟩
  | noChannel => exact .inr ⟨.inr rfl, by simp [statusSuccessors, clearBits_faults, setBits, maskTelemetry]⟩

/-- The opcode of a well-formed accessor other than MRST is one of the nine, and is not MRST's. -/
theorem mem_accessorOpcodes_of_response {op : Byte} {v : Word} {d : Device} (h : (op, v) ∈ accessorResponses d) :
    op ∈ accessorOpcodes ∧ op ≠ 0x80 := by
  have hop : op ∈ (accessorResponses d).map Prod.fst := List.mem_map.mpr ⟨_, h, rfl⟩
  have hkeys : ∀ op ∈ ([0x01, 0x03, 0x04, 0x05, 0x31, 0x32, 0x33, 0x90] : List Byte), op ∈ accessorOpcodes ∧ op ≠ 0x80 := by
    decide
  exact hkeys op hop

/-- The writes that do `ClearFaults()` (R95): a well-formed accessor, an SHTR of two bytes, and a GTLM. -/
def ClearsFaults (w : List Byte) : Prop :=
  (∃ op ∈ accessorOpcodes, w = [op, 0x00]) ∨ (∃ a1, w = [0x91, a1]) ∨ (∃ a1, w = [0x10, a1]) ∨ ∃ a1 a2, w = [0x10, a1, a2]

/-- A row clears bits 0 and 2 together, or neither of them (R28). -/
theorem WritePath.clears_together_or_keeps {w : List Byte} {d d' : Device} {n : Nat} (hp : WritePath w d n d') :
    (d'.board_status[0] = false ∧ d'.board_status[2] = false ∧ ClearsFaults w) ∨
      (d.board_status[0] = true → d'.board_status[0] = true) ∧ (d.board_status[2] = true → d'.board_status[2] = true) := by
  cases hp with
  | badlen | unknown | malformed | heaterLength => exact .inr (by simp)
  | accessor hv => exact .inl ⟨by simp, by simp, .inl ⟨_, (mem_accessorOpcodes_of_response hv).1, rfl⟩⟩
  | manualReset => exact .inl ⟨by simp, by simp, .inl ⟨0x80, by decide, rfl⟩⟩
  | telemetryLength a1 => exact .inl ⟨by simp, by simp, .inr (.inr (.inl ⟨a1, rfl⟩))⟩
  | channel a1 a2 | noChannel a1 a2 => exact .inl ⟨by simp, by simp, .inr (.inr (.inr ⟨a1, a2, rfl⟩))⟩
  | heater a1 | heaterRange a1 => exact .inl ⟨by simp, by simp, .inr (.inl ⟨a1, rfl⟩)⟩

/-- Settles O41: a step that clears one of the two bits takes a row that does `ClearFaults()`. -/
theorem unknownAndMalformedBitsAreClearedTogether : Obligations.UnknownAndMalformedBitsAreClearedTogether := by
  intro s t hstep hcleared
  obtain ⟨hkeep, -⟩ | ⟨w, rest, n, d, hb, hp, rfl, -⟩ := step_dev_cases hstep
  · simp [hkeep] at hcleared
  · obtain ⟨h0, h2, hw⟩ | ⟨h0, h2⟩ := hp.clears_together_or_keeps
    · exact ⟨h0, h2, w, rest, hb, hw⟩
    · obtain ⟨hs, ht⟩ | ⟨hs, ht⟩ := hcleared
      · rw [h0 hs] at ht
        cases ht
      · rw [h2 hs] at ht
        cases ht

/-! ### the heater status (R37) -/

/-- The bit that SHTR stores of a value in range is that value. -/
theorem heaterBit_toNat {a1 : Byte} (h : a1.toNat ≤ 1) : (heaterBit a1).toNat = a1.toNat := by
  simp only [heaterBit, BitVec.extractLsb'_toNat, Nat.shiftRight_zero]
  omega

/-- SHTR of a value in range stores it, and no other row writes the heater status. -/
theorem WritePath.heater_cases {w : List Byte} {d d' : Device} {n : Nat} (hp : WritePath w d n d') :
    d'.heater_controller_status = d.heater_controller_status ∨
      ∃ a1 : Byte, w = [0x91, a1] ∧ a1.toNat ≤ 1 ∧ d'.heater_controller_status.toNat = a1.toNat := by
  cases hp with
  | heater a1 h => exact .inr ⟨a1, rfl, h, heaterBit_toNat h⟩
  | badlen | unknown | malformed | accessor | manualReset | telemetryLength | channel | noChannel | heaterRange
  | heaterLength => exact .inl rfl

/-! ### `manual_resets` (R35, R119) -/

/-- Arguments of one zero byte are the well-formed ones of an accessor. -/
theorem eq_of_bytes_eq_zero {args : Args} (h : args.bytes = [0x00]) : args = .w2 0x00 := by
  cases args with
  | w2 a1 => rw [(List.cons.inj h).1]
  | w3 a1 a2 => cases h

/-- MRST counts; no other write does, a malformed MRST included. -/
theorem WritePath.manual_resets_cases {w : List Byte} {d d' : Device} {n : Nat} (hp : WritePath w d n d') :
    w = [0x80, 0x00] ∧ d'.manual_resets = d.manual_resets + 1 ∨ w ≠ [0x80, 0x00] ∧ d'.manual_resets = d.manual_resets := by
  cases hp with
  | manualReset => exact .inl ⟨rfl, rfl⟩
  | badlen h2 => exact .inr ⟨fun h => h2 (by rw [h]; rfl), rfl⟩
  | unknown args hu =>
    refine .inr ⟨fun h => ?_, rfl⟩
    rw [(List.cons.inj h).1] at hu
    exact absurd hu (by decide)
  | malformed hop ha => exact .inr ⟨fun h => ha (eq_of_bytes_eq_zero (List.cons.inj h).2), rfl⟩
  | accessor hv => exact .inr ⟨fun h => (mem_accessorOpcodes_of_response hv).2 (List.cons.inj h).1, rfl⟩
  | telemetryLength | channel | noChannel | heater | heaterRange | heaterLength =>
    exact .inr ⟨by simp, rfl⟩

/-- A step that delivers the well-formed MRST counts it, and every other step leaves the counter alone. -/
theorem step_manual_resets_cases {s t : State} (h : step s = .next t) :
    s.bus.head? = some (.write [0x80, 0x00]) ∧ t.dev.manual_resets = s.dev.manual_resets + 1 ∨
      s.bus.head? ≠ some (.write [0x80, 0x00]) ∧ t.dev.manual_resets = s.dev.manual_resets := by
  obtain ⟨hkeep, hb⟩ | ⟨w, rest, n, d, hb, hp, rfl, -⟩ := step_dev_cases h
  · refine .inr ⟨fun hhead => ?_, by rw [hkeep]⟩
    obtain ⟨rest, hrest⟩ := List.head?_eq_some_iff.mp hhead
    exact hb _ _ hrest
  · have hhead : s.bus.head? = some (.write [0x80, 0x00]) ↔ w = [0x80, 0x00] := by simp [hb]
    rw [Ne, hhead]
    exact hp.manual_resets_cases

/-- Settles O51: the two cases of a step, on the values of the counter. -/
theorem eachStepCountsTheMrstItDelivers : Obligations.EachStepCountsTheMrstItDelivers := by
  intro s t hstep
  obtain ⟨hhead, hcount⟩ | ⟨hhead, hkeep⟩ := step_manual_resets_cases hstep
  · rw [if_pos hhead, hcount]
    exact BitVec.toNat_add _ _
  · rw [if_neg hhead, hkeep]
    exact (Nat.mod_eq_of_lt (BitVec.isLt _)).symm

/-- The counter after a sequence from any state: its value before and the number of well-formed MRSTs. -/
theorem manual_resets_after {ts : List Transaction} {s t : State} (h : after ts s = some t) :
    t.dev.manual_resets.toNat = (s.dev.manual_resets.toNat + ts.count (.write [0x80, 0x00])) % 2 ^ 16 := by
  induction ts generalizing s with
  | nil =>
    cases h
    exact (Nat.mod_eq_of_lt (BitVec.isLt _)).symm
  | cons x xs ih =>
    rw [after] at h
    cases hstep : step (s.offer x) with
    | next s' =>
      rw [hstep] at h
      have hone := eachStepCountsTheMrstItDelivers _ _ hstep
      rw [ih h, hone, List.count_cons]
      simp only [State.offer_dev, State.offer_bus, List.head?_cons, Option.some.injEq, beq_iff_eq]
      omega
    | fault r => cases r
    | refused r =>
      rw [hstep] at h
      cases h

/-- Settles O48: the counter is 0 at reset. -/
theorem manualResetsCountWellFormedMrst : Obligations.ManualResetsCountWellFormedMrst := by
  intro ts d hd
  obtain ⟨t, ht, rfl⟩ := Option.map_eq_some_iff.mp hd
  rw [manual_resets_after ht]
  exact congrArg (· % 2 ^ 16) (Nat.zero_add _)

/-! ### The other registers, and all of them together -/

/-- No row writes the registers that no command writes (R24, R25, R34, R36). -/
theorem WritePath.constants {w : List Byte} {d d' : Device} {n : Nat} (hp : WritePath w d n d') :
    d'.version = d.version ∧ d'.checksum = d.checksum ∧ d'.brownout_resets = d.brownout_resets ∧
      d'.auto_software_resets = d.auto_software_resets ∧ d'.last_error = d.last_error := by
  cases hp with
  | badlen | unknown | malformed | accessor | manualReset | telemetryLength | channel | noChannel | heater | heaterRange
  | heaterLength => exact ⟨rfl, rfl, rfl, rfl, rfl⟩

/-- Settles O42: a step that changes the Device takes a row of R104, and each register has its lemma over the rows. -/
theorem eachRegisterIsWrittenByItsCommandOnly : Obligations.EachRegisterIsWrittenByItsCommandOnly := by
  intro s t hstep
  obtain ⟨hkeep, -⟩ | ⟨w, rest, n, d, hb, hp, rfl, -⟩ := step_dev_cases hstep
  · simp [hkeep]
  · refine ⟨fun hne => ?_, fun hne => ?_, fun hne => ?_, fun _ => ⟨w, rest, hb⟩, hp.constants⟩
    · obtain ⟨hlength, hstatus⟩ := hp.board_status_cases.resolve_left hne
      exact ⟨⟨w, rest, hb, hlength⟩, hstatus⟩
    · obtain ⟨a1, rfl, hle, hbit⟩ := hp.heater_cases.resolve_left hne
      exact ⟨a1, rest, hb, hle, hbit⟩
    · obtain ⟨rfl, hcount⟩ | ⟨-, hsame⟩ := hp.manual_resets_cases
      · exact ⟨⟨rest, hb⟩, hcount ▸ BitVec.toNat_add _ _⟩
      · exact absurd hsame hne

/-! ### A write repeated (R60, R201) -/

/-- An AND-clear leaves the bits of a mask outside its own as an OR-set made them. -/
theorem clearBits_setBits {m m' : Word} (h : m' &&& ~~~m = m') (status : Word) :
    clearBits m (setBits m' status) = setBits m' (clearBits m status) := by
  rw [clearBits, setBits, BitVec.and_or_distrib_right, h]
  rfl

/-- A clear and a response do not change what any accessor answers after the clear. -/
theorem mem_accessorResponses_clearFaults_latch {op : Byte} {v : Word} {d : Device} (h : (op, v) ∈ accessorResponses d) :
    (op, v) ∈ accessorResponses (d.clearFaults.latch v) := by
  simpa [accessorResponses, clearBits_idem] using h

/-- Recording a fault again changes nothing (R96). -/
theorem Device.recordFault_recordFault (d : Device) (m : Word) : (d.recordFault m).recordFault m = d.recordFault m := by
  simp [Device.setFault, Device.latch, setBits_idem]

/-- Clearing the faults and answering the same response again changes nothing (R95). -/
theorem Device.clearFaults_latch_again (d : Device) (v : Word) :
    (d.clearFaults.latch v).clearFaults.latch v = d.clearFaults.latch v := by
  simp [Device.clearFaults, Device.latch, clearBits_idem]

/-- A row taken again changes nothing more, but for the row of MRST, which counts. -/
theorem WritePath.again {w : List Byte} {d d' : Device} {n : Nat} (hp : WritePath w d n d') (hw : w ≠ [0x80, 0x00]) :
    WritePath w d' n d' := by
  have again {e : Device} (hq : WritePath w d' n e) (he : e = d') : WritePath w d' n d' := he ▸ hq
  cases hp with
  | badlen h2 h3 => exact .badlen h2 h3
  | unknown args hu => exact again (.unknown args hu) (d.recordFault_recordFault _)
  | malformed hop ha => exact again (.malformed hop ha) (d.recordFault_recordFault _)
  | heaterLength a1 a2 => exact again (.heaterLength a1 a2) (d.recordFault_recordFault _)
  | accessor hv =>
    exact again (.accessor (mem_accessorResponses_clearFaults_latch hv)) (d.clearFaults_latch_again _)
  | manualReset => exact absurd rfl hw
  | telemetryLength a1 => exact again (.telemetryLength a1) (d.clearFaults_latch_again _)
  | heaterRange a1 h => exact again (.heaterRange a1 h) (d.clearFaults_latch_again _)
  | heater a1 h =>
    exact again (.heater a1 h) (by simp [Device.clearFaults, Device.setHeater, Device.latch, clearBits_idem])
  | channel a1 a2 hv =>
    refine again (.channel a1 a2 hv) ?_
    simp [Device.clearFaults, Device.clearTelemetry, Device.latch, clearTelemetry_clearFaults, BitVec.and_assoc]
  | noChannel a1 a2 hn =>
    refine again (.noChannel a1 a2 hn) ?_
    have hdisjoint : maskTelemetry &&& ~~~maskClearFaults = maskTelemetry := rfl
    simp [Device.clearFaults, Device.setFault, Device.latch, clearBits_setBits hdisjoint, clearBits_idem, setBits_idem]

/-- Settles O47: the second write takes the row of the first again; for MRST both count. -/
theorem repeatingAWriteIsIdempotentUnlessMrst : Obligations.RepeatingAWriteIsIdempotentUnlessMrst := by
  refine ⟨fun w s hw => ?_, fun s => ?_⟩
  · obtain ⟨n, d, hp⟩ := exists_writePath w s.dev
    have hagain := hp.again hw
    rw [deviceAfter, deviceAfter, hp.after_eq, hp.after_eq, WritePath.after_eq hagain]
  · have hp : WritePath [0x80, 0x00] s.dev 2 _ := .manualReset
    rw [deviceAfter, hp.after_eq, WritePath.after_eq .manualReset]
    exact congrArg some (BitVec.add_assoc s.dev.manual_resets 1 1)

end Sys2Proof.Machine

/-! SUPPORT. READs in sequences, and the QUERY (R62, R84, R153). -/

namespace Sys2Proof.Machine

/-- A sequence of READs changes the model's own fields only (R153). -/
theorem after_reads {lengths : List Nat} (h : ∀ n ∈ lengths, 2 ≤ n) (s : State) :
    ∃ reply draws, after (lengths.map .read) s = some { s with reply := reply, draws := draws } := by
  induction lengths generalizing s with
  | nil => exact ⟨_, _, rfl⟩
  | cons n ns ih =>
    obtain ⟨hn, hns⟩ := List.forall_mem_cons.mp h
    rw [List.map_cons, after_read hn]
    exact ih hns _

/-- What a single READ answers (R150): the response, low byte first, and the count. -/
theorem answerAfter_read {k : Nat} (hk : 2 ≤ k) (s : State) :
    answerAfter [.read k] s = some (.data [responseLow s.dev.last_response, responseHigh s.dev.last_response] k) := by
  rw [answerAfter, replyAfter, after_read hk]
  rfl

/-- Settles O38: the READs before leave the response, which is all that a READ answers. -/
theorem readsAreRepeatable : Obligations.ReadsAreRepeatable := by
  intro lengths k s hlengths hk
  obtain ⟨reply, draws, hafter⟩ := after_reads hlengths s
  constructor
  · rw [deviceAfter, hafter]
    rfl
  · rw [answerAfter, replyAfter, after_append, hafter, Option.bind_some]
    exact (answerAfter_read hk _).trans (answerAfter_read hk s).symm

/-- Settles O39: a READ of two bytes puts out the halves of the response, which make it up again. -/
theorem queryAnswersTheLatchedResponse : Obligations.QueryAnswersTheLatchedResponse := by
  intro w s
  obtain ⟨n, d, hp⟩ := exists_writePath w s.dev
  refine ⟨d, ?_, ?_, ?_⟩
  · rw [deviceAfter, hp.after_eq]
    rfl
  · rw [deviceAfter, hp.after_eq, after_read (Nat.le_refl 2)]
    rfl
  · rw [replyAfter, hp.after_eq, after_read (Nat.le_refl 2)]
    exact congrArg some (responseHigh_append_responseLow d.last_response)

end Sys2Proof.Machine

/-! SUPPORT. The Device is all the state there is (R20, R41), and the Devices of a system share none of it (R172). -/

namespace Sys2Proof.Machine

/-- What the master can learn of a state: the Device, and the determined part of the latest outputs. -/
def State.observed (s : State) : Device × Option Reply := (s.dev, s.reply.map Reply.determined)

/-- One transaction, from two states with equal Devices: refused in both, or the two states after it look the same. -/
theorem after_cons_of_dev_eq {s t : State} (h : s.dev = t.dev) (x : Transaction) :
    (∀ xs, after (x :: xs) s = none ∧ after (x :: xs) t = none) ∨
      ∃ s' t', s'.observed = t'.observed ∧ ∀ xs, after (x :: xs) s = after xs s' ∧ after (x :: xs) t = after xs t' := by
  cases x with
  | write w =>
    obtain ⟨n, d, hp⟩ := exists_writePath w s.dev
    have hpt : WritePath w t.dev n d := h ▸ hp
    refine .inr ⟨_, _, ?_, fun xs => ⟨hp.after_eq xs, hpt.after_eq xs⟩⟩
    rfl
  | read k =>
    by_cases hk : k < 2
    · exact .inl fun xs => ⟨after_read_short hk xs s, after_read_short hk xs t⟩
    · have hk' := Nat.le_of_not_lt hk
      refine .inr ⟨_, _, ?_, fun xs => ⟨after_read hk' xs s, after_read hk' xs t⟩⟩
      simp [State.observed, determined_readBytes, h]

/-- A non-empty sequence from two states with equal Devices leaves what looks the same. -/
theorem observed_after_cons {s t : State} (h : s.dev = t.dev) (x : Transaction) (xs : List Transaction) :
    (after (x :: xs) s).map State.observed = (after (x :: xs) t).map State.observed := by
  induction xs generalizing x s t with
  | nil =>
    obtain hnone | ⟨s', t', hobs, hafter⟩ := after_cons_of_dev_eq h x
    · rw [(hnone []).1, (hnone []).2]
    · rw [(hafter []).1, (hafter []).2]
      exact congrArg some hobs
  | cons y ys ih =>
    obtain hnone | ⟨s', t', hobs, hafter⟩ := after_cons_of_dev_eq h x
    · rw [(hnone _).1, (hnone _).2]
    · rw [(hafter _).1, (hafter _).2]
      exact ih (congrArg Prod.fst hobs) y

/-- The Device and the answer after a sequence are read off what can be learnt of the state. -/
theorem deviceAfter_eq_observed (ts : List Transaction) (s : State) :
    deviceAfter ts s = ((after ts s).map State.observed).map Prod.fst := by
  rw [deviceAfter, Option.map_map]
  rfl

theorem answerAfter_eq_observed (ts : List Transaction) (s : State) :
    answerAfter ts s = ((after ts s).map State.observed).bind Prod.snd := by
  rw [answerAfter, replyAfter]
  cases after ts s <;> rfl

/-- Settles O49: by induction on the sequence, the states after it look the same; the empty one leaves the Device. -/
theorem behaviourDependsOnTheDeviceAlone : Obligations.BehaviourDependsOnTheDeviceAlone := by
  intro ts s t h
  cases ts with
  | nil => exact ⟨congrArg some h, fun hne => absurd rfl hne⟩
  | cons x xs =>
    have hobs := observed_after_cons h x xs
    refine ⟨?_, fun _ => ?_⟩
    · rw [deviceAfter_eq_observed, hobs, deviceAfter_eq_observed]
    · rw [answerAfter_eq_observed, hobs, answerAfter_eq_observed]

/-- A step of one Device of a system answers when the step of its state does, which it puts in that Device's place. -/
theorem stepInstance_eq_next_iff {n : Nat} {i : Fin n} {sys a : Vector State n} :
    stepInstance i sys = .next a ↔ ∃ t, step sys[i] = .next t ∧ sys.set i t = a := by
  unfold stepInstance
  cases step sys[i] <;> simp

/-- Settles O50: a step of one Device neither reads nor writes the place of the other. -/
theorem instancesAreIndependent : Obligations.InstancesAreIndependent := by
  intro n i j sys a b hij ha hb
  obtain ⟨s, hs, rfl⟩ := stepInstance_eq_next_iff.mp ha
  obtain ⟨t, ht, rfl⟩ := stepInstance_eq_next_iff.mp hb
  have hij' : i.val ≠ j.val := fun h => hij (Fin.ext h)
  have hj : (sys.set i s)[j] = sys[j] := Vector.getElem_set_ne _ _ hij'
  have hi : (sys.set j t)[i] = sys[i] := Vector.getElem_set_ne _ _ hij'.symm
  refine ⟨hj, (sys.set i s).set j t, ?_, ?_⟩
  · exact stepInstance_eq_next_iff.mpr ⟨t, hj ▸ ht, rfl⟩
  · exact stepInstance_eq_next_iff.mpr ⟨s, hi ▸ hs, Vector.set_comm _ _ hij'.symm⟩

end Sys2Proof.Machine

/-! SUPPORT. The six error conditions (R161): each is a row of R104, at most one is raised, and the rows of the writes that
raise none. -/

namespace Sys2Proof.Machine

/-- A condition without a bit does `ClearFaults()` where it says so, and answers the sentinel (R161). -/
theorem ErrorCondition.record_of_mask_eq_zero {e : ErrorCondition} (h : e.mask = 0x0000) (d : Device) :
    e.record d = (if e.clears then d.clearFaults else d).answerError := by
  have hor : ∀ status : Word, status ||| e.mask = status := fun _ => by rw [h]; exact BitVec.or_zero
  rw [ErrorCondition.record, hor]
  cases e.clears <;> rfl

/-- A write that raises a condition takes a row that records it as R161 lists it. -/
theorem ErrorCondition.writePath_record {e : ErrorCondition} {w : List Byte} (h : e.raisedBy Config.tlmRom w) (d : Device) :
    WritePath w d (if e = .invalidLength then 2 else w.length) (e.record d) := by
  cases e with
  | unknownCommand =>
    obtain ⟨op, args, rfl, hu⟩ := h
    rw [length_frame]
    exact .unknown args hu
  | malformedArgument =>
    obtain ⟨op, hop, ⟨a1, ha, rfl⟩ | ⟨a1, a2, rfl⟩⟩ | ⟨a1, a2, rfl⟩ := h
    · exact .malformed (args := .w2 a1) hop (by simpa using ha)
    · exact .malformed (args := .w3 a1 a2) hop (by simp)
    · exact .heaterLength a1 a2
  | invalidChannel =>
    obtain ⟨a1, a2, rfl, hn⟩ := h
    exact .noChannel a1 a2 fun v hv => hn ⟨v, hv⟩
  | invalidLength =>
    rw [record_of_mask_eq_zero rfl]
    exact .badlen h.1 h.2
  | telemetryLength =>
    obtain ⟨a1, rfl⟩ := h
    rw [record_of_mask_eq_zero rfl]
    exact .telemetryLength a1
  | heaterRange =>
    obtain ⟨a1, hle, rfl⟩ := h
    rw [record_of_mask_eq_zero rfl]
    exact .heaterRange a1 hle

/-- Settles O43: the step takes the row that records the condition. -/
theorem eachErrorConditionIsRecordedAsListed : Obligations.EachErrorConditionIsRecordedAsListed :=
  fun s _ _ _ hb hraised => (ErrorCondition.writePath_record hraised s.dev).step_eq hb

/-- The only condition that the format and the opcode of a write make possible. -/
def possibleError : List Byte → ErrorCondition
  | [op, _] =>
    if unassigned op then .unknownCommand
    else if op = 0x10 then .telemetryLength
    else if op = 0x91 then .heaterRange
    else .malformedArgument
  | [op, _, _] =>
    if unassigned op then .unknownCommand
    else if op = 0x10 then .invalidChannel
    else .malformedArgument
  | _ => .invalidLength

/-- A condition that a write raises is the one that its format and opcode make possible. -/
theorem ErrorCondition.eq_possibleError {e : ErrorCondition} {rom : TlmRom} {w : List Byte} (h : e.raisedBy rom w) :
    e = possibleError w := by
  have hassigned : ∀ op ∈ accessorOpcodes, unassigned op = false ∧ op ≠ 0x10 ∧ op ≠ 0x91 := by decide
  cases e with
  | unknownCommand =>
    obtain ⟨op, args, rfl, hu⟩ := h
    cases args <;> simp only [Args.bytes, possibleError, if_pos hu]
  | malformedArgument =>
    obtain ⟨op, hop, ⟨a1, -, rfl⟩ | ⟨a1, a2, rfl⟩⟩ | ⟨a1, a2, rfl⟩ := h
    · obtain ⟨hu, h10, h91⟩ := hassigned op hop
      simp only [possibleError, hu, if_neg h10, if_neg h91, Bool.false_eq_true, if_false]
    · obtain ⟨hu, h10, -⟩ := hassigned op hop
      simp only [possibleError, hu, if_neg h10, Bool.false_eq_true, if_false]
    · rfl
  | invalidChannel =>
    obtain ⟨a1, a2, rfl, -⟩ := h
    rfl
  | invalidLength =>
    obtain ⟨h2, h3⟩ := h
    match w with
    | [] | [_] | _ :: _ :: _ :: _ :: _ => rfl
    | [_, _] => exact absurd rfl h2
    | [_, _, _] => exact absurd rfl h3
  | telemetryLength =>
    obtain ⟨a1, rfl⟩ := h
    rfl
  | heaterRange =>
    obtain ⟨a1, -, rfl⟩ := h
    rfl

/-- The rows of a write that raises no error condition: an accessor, MRST, a defined channel, and a heater value in range. -/
inductive SuccessPath : List Byte → Device → Device → Prop where
  | accessor {op v d} (h : (op, v) ∈ accessorResponses d) : SuccessPath [op, 0x00] d (d.clearFaults.latch v)
  | manualReset {d} : SuccessPath [0x80, 0x00] d (d.clearFaults.countManualReset.latch 0x0000)
  | channel {d v} (a1 a2 : Byte) (h : (channelCode a1 a2, v) ∈ Config.tlmRom.entries) :
      SuccessPath [0x10, a1, a2] d (d.clearFaults.clearTelemetry.latch v)
  | heater {d} (a1 : Byte) (h : a1.toNat ≤ 1) :
      SuccessPath [0x91, a1] d ((d.clearFaults.setHeater (heaterBit a1)).latch 0x0000)

/-- Every other row of R104 raises a condition. -/
theorem WritePath.success {w : List Byte} {d d' : Device} {n : Nat} (hp : WritePath w d n d')
    (hno : ∀ e : ErrorCondition, ¬ e.raisedBy Config.tlmRom w) : SuccessPath w d d' := by
  cases hp with
  | accessor hv => exact .accessor hv
  | manualReset => exact .manualReset
  | channel a1 a2 hv => exact .channel a1 a2 hv
  | heater a1 h => exact .heater a1 h
  | badlen h2 h3 => exact absurd ⟨h2, h3⟩ (hno .invalidLength)
  | unknown args hu => exact absurd ⟨_, args, rfl, hu⟩ (hno .unknownCommand)
  | @malformed op _ args hop ha =>
    refine absurd (.inl ⟨op, hop, ?_⟩) (hno .malformedArgument)
    cases args with
    | w2 a1 => exact .inl ⟨a1, by simpa using ha, rfl⟩
    | w3 a1 a2 => exact .inr ⟨a1, a2, rfl⟩
  | telemetryLength a1 => exact absurd ⟨a1, rfl⟩ (hno .telemetryLength)
  | noChannel a1 a2 hn => exact absurd ⟨a1, a2, rfl, fun ⟨v, hv⟩ => hn v hv⟩ (hno .invalidChannel)
  | heaterRange a1 h => exact absurd ⟨a1, h, rfl⟩ (hno .heaterRange)
  | heaterLength a1 a2 => exact absurd (.inr ⟨a1, a2, rfl⟩) (hno .malformedArgument)

/-- An AND-clear sets no bit. -/
theorem clearBits_or_self (m status : Word) : clearBits m status ||| status = status := by
  ext i hi
  rw [BitVec.getElem_or, clearBits_getElem]
  cases status[i] <;> simp

/-- A row without an error sets no bit of the status: it does one AND-clear, or two. -/
theorem SuccessPath.sets_no_bit {w : List Byte} {d d' : Device} (hp : SuccessPath w d d') :
    d'.board_status ||| d.board_status = d.board_status := by
  cases hp with
  | accessor | manualReset | heater => exact clearBits_or_self maskClearFaults d.board_status
  | channel =>
    have htwo : clearBits maskTelemetry (clearBits maskClearFaults d.board_status) = clearBits 0x000D d.board_status :=
      clearTelemetry_clearFaults d.board_status
    simpa [htwo] using clearBits_or_self 0x000D d.board_status

/-- Settles O44: format and opcode make one condition possible, and the rows that raise none set no bit. -/
theorem aWriteRaisesAtMostOneError : Obligations.AWriteRaisesAtMostOneError := by
  intro w
  constructor
  · intro e e' he he'
    rw [ErrorCondition.eq_possibleError he, ErrorCondition.eq_possibleError he']
  · intro hno s
    obtain ⟨n, d, hp⟩ := exists_writePath w s.dev
    refine ⟨d, ?_, (hp.success hno).sets_no_bit⟩
    rw [deviceAfter, hp.after_eq]
    rfl

/-- The heater status answers 0 or 1 (R118). -/
theorem heaterWord_eq_ite (b : Bit) : heaterWord b = if b = 1 then 0x0001 else 0x0000 := by
  revert b
  decide

/-- Of the accessors other than MRST only GMR can answer the sentinel on a legal Device: the status has reserved bits, the
heater status is 0 or 1, and the other registers are constant. -/
theorem gmr_of_response_eq_sentinel {op : Byte} {d : Device} (hl : d.Legal) (h : (op, 0xFFFF) ∈ accessorResponses d) :
    op = 0x33 ∧ d.manual_resets = 0xFFFF := by
  have hstatus : (0xFFFF : Word) ≠ d.clearFaults.board_status := fun hs =>
    absurd hl.clearFaults.reserved (by rw [← hs]; decide)
  have hheater : (0xFFFF : Word) ≠ heaterWord d.heater_controller_status := by
    rw [heaterWord_eq_ite]
    split <;> decide
  simp only [accessorResponses, hl.last_error, hl.version, hl.checksum, hl.brownout, hl.auto_software, List.mem_cons,
    List.not_mem_nil, or_false, Prod.mk.injEq] at h
  obtain ⟨-, h⟩ | ⟨-, h⟩ | ⟨-, h⟩ | ⟨-, h⟩ | ⟨-, h⟩ | ⟨-, h⟩ | ⟨hop, h⟩ | ⟨-, h⟩ := h
  · exact absurd h hstatus
  · exact absurd h (by decide)
  · exact absurd h (by decide)
  · exact absurd h (by decide)
  · exact absurd h (by decide)
  · exact absurd h (by decide)
  · exact ⟨hop, h.symm⟩
  · exact absurd h hheater

/-- Settles O45: of the rows without an error, only a GMR and a defined channel can latch the sentinel. -/
theorem sentinelWithoutAnErrorIsACountOrAReading : Obligations.SentinelWithoutAnErrorIsACountOrAReading := by
  intro w s d' hl hno hd hsentinel
  obtain ⟨n, d, hp⟩ := exists_writePath w s.dev
  obtain rfl : d = d' := by
    rw [deviceAfter, hp.after_eq] at hd
    exact Option.some.inj hd
  cases hp.success hno with
  | @accessor op v _ hv =>
    obtain rfl : v = 0xFFFF := hsentinel
    obtain ⟨rfl, hcount⟩ := gmr_of_response_eq_sentinel hl hv
    exact .inl ⟨rfl, hcount⟩
  | @channel _ v a1 a2 hv =>
    obtain rfl : v = 0xFFFF := hsentinel
    exact .inr ⟨a1, a2, channelCode a1 a2, rfl, channelCode_toNat a1 a2, hv⟩
  | manualReset => cases hsentinel
  | heater => cases hsentinel

end Sys2Proof.Machine

/-! SUPPORT. The accessors GBS, GMR, GHTR and MRST (R111, R117 to R119), and the malformed forms of all nine (R97, R110). -/

namespace Sys2Proof.Machine

/-- A legal Device has bit 3 alone left after the clear, set or not (R111). -/
theorem Device.Legal.status_after_clear {d : Device} (hl : d.Legal) :
    d.board_status &&& 0xFFFA = 0x0000 ∨ d.board_status &&& 0xFFFA = 0x0008 := by
  have hmem := mem_legalStatuses_of_reserved hl.reserved
  simp only [legalStatuses, List.mem_cons, List.not_mem_nil, or_false] at hmem
  rcases hmem with h | h | h | h | h | h | h | h <;> rw [h] <;> decide

/-- GBS answers the status that the clear leaves (R111). -/
theorem exec_gbs (s : State) : exec (.gbs (.w2 0x00)) s = .next (s.afterAccessor (s.dev.board_status &&& 0xFFFA)) :=
  simpleAccessor_eq_afterAccessor (fun d => d.board_status) rfl

/-- GMR answers the counter, which the clear leaves alone (R117). -/
theorem exec_gmr (s : State) : exec (.gmr (.w2 0x00)) s = .next (s.afterAccessor s.dev.manual_resets) :=
  simpleAccessor_eq_afterAccessor (fun d => d.manual_resets) rfl

/-- The whole next state of the well-formed MRST (R119), with the literals of the spec. -/
theorem exec_mrst (s : State) :
    exec (.mrst (.w2 0x00)) s = .next { s with
      dev := { s.dev with
        board_status := s.dev.board_status &&& 0xFFFA
        manual_resets := s.dev.manual_resets + 1
        last_response := 0x0000 }
      reply := some (.ack 2) } := rfl

/-- Settles O15: the clear comes first, and a legal status keeps bit 3 of it only. -/
theorem gbsAnswersTheStatusAfterTheClear : Obligations.GbsAnswersTheStatusAfterTheClear :=
  ⟨exec_gbs, fun _ hl => hl.status_after_clear⟩

/-- Settles O21: the example runs MRST from reset, and GMR reads its count back. -/
theorem gmrAnswersTheManualResetCount : Obligations.GmrAnswersTheManualResetCount := by
  have hdecode : decode (.write [0x33, 0x00]) = .ok (.gmr (.w2 0x00)) := rfl
  have hmrst : decode (.write [0x80, 0x00]) = .ok (.mrst (.w2 0x00)) := rfl
  refine ⟨hdecode, exec_gmr, ?_⟩
  rw [answerAfter, replyAfter, after_write_of_exec hmrst (exec_mrst _)]
  exact answerAfter_query hdecode (exec_gmr _)

/-- Settles O22: the two values of the heater status; the examples read it after an SHTR of 0 and at reset. -/
theorem ghtrAnswersTheHeaterStatus : Obligations.GhtrAnswersTheHeaterStatus := by
  have hdecode : decode (.write [0x90, 0x00]) = .ok (.ghtr (.w2 0x00)) := rfl
  refine ⟨hdecode, fun s => ?_, ?_, answerAfter_query hdecode (exec_ghtr _)⟩
  · rw [← heaterWord_eq_ite]
    exact exec_ghtr s
  · have hshtr : decode (.write [0x91, 0x00]) = .ok (.shtr (.w2 0x00)) := decode_write_shtr (.w2 0x00)
    rw [answerAfter, replyAfter, after_write_of_exec hshtr (exec_shtr_of_le (by decide) _)]
    exact answerAfter_query hdecode (exec_ghtr _)

/-- Settles O23: the sum of two words is the sum of their values modulo 2^16. -/
theorem mrstCountsAndAnswersZero : Obligations.MrstCountsAndAnswersZero :=
  ⟨rfl, fun s => ⟨s.dev.manual_resets + 1, BitVec.toNat_add _ _, exec_mrst s⟩⟩

/-- The whole next state of an accessor on any but its well-formed form (R97), with the literals of the spec. -/
theorem exec_command_malformed {command : Args → Instr}
    (hc : command ∈ ([.gbs, .gle, .gver, .gcs, .gbor, .gasr, .gmr, .mrst, .ghtr] : List (Args → Instr))) {args : Args}
    (ha : args ≠ .w2 0x00) (s : State) :
    exec (command args) s = .next { s with
      dev := { s.dev with
        board_status := s.dev.board_status ||| 0x0004
        last_response := 0xFFFF }
      reply := some (.ack (argsLength args)) } := by
  have hcommands : accessorTable.map Prod.snd = [.gbs, .gle, .gver, .gcs, .gbor, .gasr, .gmr, .mrst, .ghtr] := rfl
  rw [← hcommands] at hc
  obtain ⟨row, hr, rfl⟩ := List.mem_map.mp hc
  exact exec_accessor_malformed hr ha s

/-- Settles O24: a non-zero argument is not the well-formed form. -/
theorem accessorWithANonZeroArgumentIsMalformed : Obligations.AccessorWithANonZeroArgumentIsMalformed :=
  fun _ hc a1 h1 s => exec_command_malformed (args := .w2 a1) hc (by simpa using h1) s

/-- Settles O25: three bytes are not the well-formed form. -/
theorem accessorOfThreeBytesIsMalformed : Obligations.AccessorOfThreeBytesIsMalformed :=
  fun _ hc a1 a2 s => exec_command_malformed (args := .w3 a1 a2) hc (by simp) s

/-- Settles O11: a READ at reset, and the QUERY of each of the eight accessors that have no further effect. -/
theorem firstQueriesAfterReset : Obligations.FirstQueriesAfterReset :=
  ⟨answerAfter_read (Nat.le_refl 2) _,
    answerAfter_query (i := .gbs (.w2 0x00)) rfl (exec_gbs _),
    answerAfter_query (i := .gle (.w2 0x00)) rfl (exec_gle rfl),
    answerAfter_query (i := .gver (.w2 0x00)) rfl (exec_gver rfl),
    answerAfter_query (i := .gcs (.w2 0x00)) rfl (exec_gcs rfl),
    answerAfter_query (i := .gbor (.w2 0x00)) rfl (exec_gbor rfl),
    answerAfter_query (i := .gasr (.w2 0x00)) rfl (exec_gasr rfl),
    answerAfter_query (i := .gmr (.w2 0x00)) rfl (exec_gmr _),
    answerAfter_query (i := .ghtr (.w2 0x00)) rfl (exec_ghtr _)⟩

end Sys2Proof.Machine

/-! SUPPORT. The defined channels (R50, R132) and SHTR out of range (R142). -/

namespace Sys2Proof.Machine

/-- The lookup answers the fault for exactly the codes that no pair of the table has (R50, R131). -/
theorem romLookup_fault_iff (rom : TlmRom) (code : Word) :
    (romLookup rom code).2 = true ↔ code ∉ rom.entries.map Prod.fst := by
  by_cases h : ∃ v, (code, v) ∈ rom.entries
  · obtain ⟨v, hv⟩ := h
    have hcode : code ∈ rom.entries.map Prod.fst := List.mem_map.mpr ⟨_, hv, rfl⟩
    simp [romLookup_of_mem hv, hcode]
  · have hn : ∀ v, (code, v) ∉ rom.entries := fun v hv => h ⟨v, hv⟩
    have hcode : code ∉ rom.entries.map Prod.fst := fun hmem => by
      obtain ⟨⟨_, v⟩, hv, rfl⟩ := List.mem_map.mp hmem
      exact hn v hv
    simp [romLookup_of_forall_notMem hn, hcode]

/-- Settles O27: the sixteen codes of the table, which are distinct. -/
theorem sixteenChannelCodesAreDefined : Obligations.SixteenChannelCodesAreDefined :=
  fun rom => ⟨rom.entries.map Prod.fst, rom.distinct, (List.length_map _).trans rom.sixteen, romLookup_fault_iff rom⟩

/-- The whole next state of GTLM of a defined channel (R132), with the literals of the spec. -/
theorem exec_gtlm_of_mem {a1 a2 : Byte} {v : Word} (h : (channelCode a1 a2, v) ∈ Config.tlmRom.entries) (s : State) :
    exec (.gtlm (.w3 a1 a2)) s = .next { s with
      dev := { s.dev with
        board_status := s.dev.board_status &&& 0xFFF2
        last_response := v }
      reply := some (.ack 3) } := by
  rw [← clearTelemetry_clearFaults]
  exact congrArg (completeWrite 3 · s) (readChannel_of_mem h s.dev)

/-- Settles O28: the bits that the two clears leave of a status are its reserved bits, 0 in a legal one. -/
theorem gtlmOfADefinedChannel : Obligations.GtlmOfADefinedChannel := by
  refine ⟨fun a1 a2 code v s hcode hv => ?_, fun _ hl => hl.reserved⟩
  obtain rfl := eq_channelCode_of_toNat hcode
  exact exec_gtlm_of_mem hv s

/-- Settles O32: a value out of range is answered by the sentinel after the clear. -/
theorem shtrOutOfRangeStoresNothing : Obligations.ShtrOutOfRangeStoresNothing :=
  fun _ s h => congrArg (completeWrite 2 · s) (requestHeater_of_two_le h s.dev)

end Sys2Proof.Machine
